-- ==== Sys2Proof/Word.lean ====
section
/-! DEFINITION. The word types of ECIH. All quantities are unsigned (00_scope.md R12); every access
of the block moves one byte (20_memory.md R65). -/

namespace Sys2Proof

/-- One byte: a memory cell, a port level, a text character. -/
abbrev Byte := BitVec 8

/-- Sixteen bits: the timer count (10_state.md R22), an output ring index (R35), a step word
(30_encoding.md R107). -/
abbrev Half := BitVec 16

end Sys2Proof
end

