-- ==== Sys2Proof/Syntax.lean ====
section
/-! DEFINITION. The operations of ECIH: one constructor per row of spec/opcode_table.json (30_encoding.md
R110, R112). -/

namespace Sys2Proof

/-- Fifteen micro-operations (format S) and the two record classes that `DR.FWD` dispatches on (format R). -/
inductive Instr where
  /-- `INIT` (R196). -/
  | init
  /-- `PIN v` (R197). -/
  | pin (v : Byte)
  /-- `TMR n` (R198). -/
  | tmr (n : Byte)
  /-- `ENTER.E` (R131). -/
  | enterE
  /-- `ENTER.T` (R132). -/
  | enterT
  /-- `RDPORT` (R133). -/
  | rdport
  /-- `RDTLO` (R134). -/
  | rdtlo
  /-- `RDTHI` (R135). -/
  | rdthi
  /-- `COMMIT` (R136). -/
  | commit
  /-- `DR.CHK` (R151). -/
  | drChk
  /-- `DR.RD k` (R152). -/
  | drRd (k : BitVec 2)
  /-- `DR.FWD` (R153). -/
  | drFwd
  /-- `FORMAT` (R171). -/
  | format
  /-- `TX r` (R186): `r` is the sampled readiness of the transport (R23). -/
  | tx (r : Bool)
  /-- `SERVICE` (R188). -/
  | service
  /-- `FWD.TICK` (R155): the policy for a record whose marker byte is zero. -/
  | fwdTick (tsLo tsHi port : Byte)
  /-- `FWD.EDGE` (R154): the policy for a record whose marker byte `kind` is not zero. -/
  | fwdEdge (tsLo tsHi port kind : Byte)
  deriving DecidableEq, Repr

/-- Who performs an operation (R4, R110). The record classes are parts of a MAIN step (R112). -/
inductive Agent where
  | system
  | env
  | isr
  | main
  | mainPolicy
  deriving DecidableEq, Repr

/-- The agent column of opcode_table.json. -/
def Instr.agent : Instr → Agent
  | .init => .system
  | .pin _ => .env
  | .tmr _ => .env
  | .enterE => .isr
  | .enterT => .isr
  | .rdport => .isr
  | .rdtlo => .isr
  | .rdthi => .isr
  | .commit => .isr
  | .drChk => .main
  | .drRd _ => .main
  | .drFwd => .main
  | .format => .main
  | .tx _ => .main
  | .service => .main
  | .fwdTick _ _ _ => .mainPolicy
  | .fwdEdge _ _ _ _ => .mainPolicy

/-- A micro-operation is a step of its own (R13); a record class is not (R154, R155). -/
abbrev Instr.isStep (i : Instr) : Prop := i.agent ≠ .mainPolicy

end Sys2Proof
end

