-- ==== Sys2Proof/WellFormed.lean ====
section
/-! DEFINITION. Which terms of Instr stand for a row of the opcode table: the operand ranges of
30_encoding.md R109 and the constraint of R112. `k` of DR.RD and `r` of TX are in range by their types. -/

namespace Sys2Proof

/-- R109: `n` of `TMR n` is 1 to 255. R112: a `FWD.EDGE` record has a marker byte that is not zero. -/
def Instr.wellFormed : Instr → Bool
  | .init => true
  | .pin _ => true
  | .tmr n => n != 0
  | .enterE => true
  | .enterT => true
  | .rdport => true
  | .rdtlo => true
  | .rdthi => true
  | .commit => true
  | .drChk => true
  | .drRd _ => true
  | .drFwd => true
  | .format => true
  | .tx _ => true
  | .service => true
  | .fwdTick _ _ _ => true
  | .fwdEdge _ _ _ kind => kind != 0

end Sys2Proof
end

