-- ==== Sys2Proof/Decode.lean ====
section
/-! DEFINITION. Decoding and encoding of the two binary formats: the step word (format S, 30_encoding.md
R107, R109 to R111) and the capture record (format R, R101, R102, R112). Decoding is total on any bytes
and rejects by name. -/

namespace Sys2Proof

/-- Why a sequence of bytes is no operation (R111). -/
inductive Reserved where
  /-- `grp` is 0 or 5 to 15. -/
  | group
  /-- The group has no operation numbered `sub`. -/
  | subOperation
  /-- `arg` is outside the operation's range (R109), `0x2100` among them. -/
  | operand
  /-- Neither the two bytes of a step word nor the four of a record (R100). -/
  | length
  deriving DecidableEq, Repr

/-- `grp`, bits 15:12 of a step word (R107). -/
def wordGrp (w : Half) : BitVec 4 := w.extractLsb' 12 4

/-- `sub`, bits 11:8 (R107). -/
def wordSub (w : Half) : BitVec 4 := w.extractLsb' 8 4

/-- `arg`, bits 7:0 (R107). -/
def wordArg (w : Half) : Byte := w.extractLsb' 0 8

/-- An operation without operand requires `arg = 0` (R109). -/
def noOperand (arg : Byte) (i : Instr) : Except Reserved Instr :=
  if arg = 0 then .ok i else .error .operand

/-- The opcode map (R110): `grp` and `sub` choose the operation, then `arg` is checked (R107, R109). -/
def decodeStep (w : Half) : Except Reserved Instr :=
  let arg := wordArg w
  match (wordGrp w).toNat, (wordSub w).toNat with
  | 1, 0 => noOperand arg .init
  | 2, 0 => .ok (.pin arg)
  | 2, 1 => if arg = 0 then .error .operand else .ok (.tmr arg)
  | 3, 0 => noOperand arg .enterE
  | 3, 1 => noOperand arg .enterT
  | 3, 2 => noOperand arg .rdport
  | 3, 3 => noOperand arg .rdtlo
  | 3, 4 => noOperand arg .rdthi
  | 3, 5 => noOperand arg .commit
  | 4, 0 => noOperand arg .drChk
  | 4, 1 => if arg.toNat ≤ 3 then .ok (.drRd (arg.extractLsb' 0 2)) else .error .operand
  | 4, 2 => noOperand arg .drFwd
  | 4, 3 => noOperand arg .format
  | 4, 4 => if arg.toNat ≤ 1 then .ok (.tx (arg.getLsbD 0)) else .error .operand
  | 4, 5 => noOperand arg .service
  | 1, _ => .error .subOperation
  | 2, _ => .error .subOperation
  | 3, _ => .error .subOperation
  | 4, _ => .error .subOperation
  | _, _ => .error .group

/-- Classification of a record by its marker byte, bits 31:24 (R102, R112): `FWD.TICK` first, every other
record is `FWD.EDGE`. All 2^32 records decode. -/
def decodeRecord (rec32 : BitVec 32) : Instr :=
  let tsLo := rec32.extractLsb' 0 8
  let tsHi := rec32.extractLsb' 8 8
  let port := rec32.extractLsb' 16 8
  let kind := rec32.extractLsb' 24 8
  if kind = 0 then .fwdTick tsLo tsHi port else .fwdEdge tsLo tsHi port kind

/-- Decoding of bytes in the order of their addresses. A record's byte `k` is `rec32[8k+7 : 8k]` (R101). A
step word is never stored by the hardware (R100): that its low byte comes first is the model's DESIGN
CHOICE (log entry 9). -/
def decode : List Byte → Except Reserved Instr
  | [b0, b1] => decodeStep (b1 ++ b0)
  | [b0, b1, b2, b3] => .ok (decodeRecord (b3 ++ b2 ++ b1 ++ b0))
  | _ => .error .length

/-- The word of an operation: 16 bits of format S or 32 of format R (R100). -/
inductive Encoded where
  | step (w : Half)
  | record (r : BitVec 32)
  deriving DecidableEq, Repr

/-- `{grp, sub, arg}` (R107): the agent group, the operation within it, the operand. -/
def stepWord (grp sub : BitVec 4) (arg : Byte) : Encoded := .step (grp ++ sub ++ arg)

/-- The word of a well-formed operation, from the table of R110 and the record layout of R101. -/
def encode : Instr → Encoded
  | .init => stepWord 1 0 0
  | .pin v => stepWord 2 0 v
  | .tmr n => stepWord 2 1 n
  | .enterE => stepWord 3 0 0
  | .enterT => stepWord 3 1 0
  | .rdport => stepWord 3 2 0
  | .rdtlo => stepWord 3 3 0
  | .rdthi => stepWord 3 4 0
  | .commit => stepWord 3 5 0
  | .drChk => stepWord 4 0 0
  | .drRd k => stepWord 4 1 (k.zeroExtend 8)
  | .drFwd => stepWord 4 2 0
  | .format => stepWord 4 3 0
  | .tx r => stepWord 4 4 (if r then 1 else 0)
  | .service => stepWord 4 5 0
  | .fwdTick tsLo tsHi port => .record ((0 : Byte) ++ port ++ tsHi ++ tsLo)
  | .fwdEdge tsLo tsHi port kind => .record (kind ++ port ++ tsHi ++ tsLo)

/-- The bytes of a word, lowest address first, as `decode` takes them. -/
def Encoded.bytes : Encoded → List Byte
  | .step w => [w.extractLsb' 0 8, w.extractLsb' 8 8]
  | .record r => [r.extractLsb' 0 8, r.extractLsb' 8 8, r.extractLsb' 16 8, r.extractLsb' 24 8]

/-- The word the table gives a row as `nbits` bits with value `w`: at most 16 bits are a step word, more
are a record (R100). A value that does not fit is no word. -/
def tableWord (nbits w : Nat) : Option Encoded :=
  if nbits ≤ 16 then (if w < 65536 then some (.step (BitVec.ofNat 16 w)) else none)
  else (if w < 4294967296 then some (.record (BitVec.ofNat 32 w)) else none)

/-- What the decoder reads from a word of opcode_table.json, laid out in its bytes. -/
def decodeTableWord (nbits w : Nat) : Option Instr :=
  match tableWord nbits w with
  | none => none
  | some e =>
    match decode e.bytes with
    | .ok i => some i
    | .error _ => none

end Sys2Proof
end

