-- ==== Sys2Proof/Config.lean ====
section
/-! DEFINITION. The build-time configuration of ECIH (00_scope.md R5 to R11) and the free values of the
model. The configuration is carried in State and never changed (log entry 2); the spec's ranges of its
parameters are `Config.wf`. The free values are constants with no body (log entries 1, 3, 5, 12). -/

namespace Sys2Proof

/-- `TOPOLOGY` (R5): four independent edge interrupts, or eight pins that share one. -/
inductive Topology where
  | edgeQuad
  | changeOcta
  deriving DecidableEq, Repr

/-- `IRQ_PRIO` (R11, R216): what happens when both interrupt classes are pending. -/
inductive IrqPrio where
  | any
  | edgeFirst
  | tickFirst
  deriving DecidableEq, Repr

/-- The implementation parameters (00_scope.md R5 to R11), one field each. -/
structure Config where
  /-- `TOPOLOGY` (R5). -/
  topology : Topology
  /-- `MON_MASK` (R5): a 1 in each monitored bit of the port. -/
  monMask : Byte
  /-- `IN_SLOTS` (R6): record slots of the input ring. -/
  inSlots : Nat
  /-- `OUT_SLOTS` (R6): record slots of the output ring. -/
  outSlots : Nat
  /-- `TICK_QUOTA_MAX` (R7). -/
  tickQuotaMax : Byte
  /-- `TOKENS_PER_LINE` (R8), written N in the rules. -/
  tokensPerLine : Byte
  /-- `IN_BASE` (R10): address of the input ring. -/
  inBase : Nat
  /-- `VAR_BASE` (R10): address of the working variables. -/
  varBase : Nat
  /-- `OUT_BASE` (R10): address of the output ring. -/
  outBase : Nat
  /-- `RESET_PULSE_EN` (R11): recorded; no rule reads it. -/
  resetPulseEn : Bool
  /-- `BANNER` (R11): sent by an external helper, never by the block. -/
  banner : List Byte
  /-- `IRQ_PRIO` (R11). -/
  irqPrio : IrqPrio
  deriving DecidableEq, Repr

/-- The bit positions of the monitored pins, from bit 0 upward: `bitpos(i)` of R197 is its entry `i`. -/
def monitoredPins (mask : Byte) : List Nat := (List.range 8).filter fun p => mask.getLsbD p

/-- `popcount` (00_scope.md section 7). -/
def popcount (mask : Byte) : Nat := (monitoredPins mask).length

/-- Bytes of the working variables of R60 when each takes whole bytes: `IN_TAIL` 1, `M_NE` 1, `M_REC` 4,
`QUOTA` 1, `OUT_HEAD` 2, `OUT_TAIL` 2, `LINECNT` 1, `TXBUF` 9, `CUR` 1. DEDUCED from the widths of R20
(log entry 7); used only for the disjointness of R61. -/
def varBytes : Nat := 22

/-- `popcount(MON_MASK)` is 1 to 4 in `EDGE_QUAD` and 1 to 8 in `CHANGE_OCTA` (R5). -/
abbrev Config.maskOk (c : Config) : Prop :=
  1 ≤ popcount c.monMask ∧ (c.topology = .edgeQuad → popcount c.monMask ≤ 4)

/-- R6: `IN_SLOTS` is a power of two from 2 to 256; `OUT_SLOTS` is at least 2. The upper bound of
`OUT_SLOTS` is DEDUCED from its indices' 16 bits (R35; log entry 8). -/
abbrev Config.slotsOk (c : Config) : Prop :=
  c.inSlots ∈ [2, 4, 8, 16, 32, 64, 128, 256] ∧ 2 ≤ c.outSlots ∧ c.outSlots ≤ 65536

/-- 20_memory.md R61, R64: the input ring is aligned to its size in bytes, the variables lie after it in
the same fixed block, and the output ring is disjoint from that block. -/
abbrev Config.layoutOk (c : Config) : Prop :=
  c.inBase % (4 * c.inSlots) = 0 ∧ c.inBase + 4 * c.inSlots ≤ c.varBase ∧
    (c.varBase + varBytes ≤ c.outBase ∨ c.outBase + 4 * c.outSlots ≤ c.inBase)

/-- A legal configuration: the ranges of R5 to R11. -/
abbrev Config.wf (c : Config) : Prop :=
  c.maskOk ∧ c.slotsOk ∧ c.layoutOk ∧ 1 ≤ c.tokensPerLine.toNat ∧
    (c.resetPulseEn = true → c.topology = .edgeQuad)

/-- FREE VALUE: the timer count after the INIT that is draw `d` (10_state.md R22, I1). -/
opaque Config.freeTcnt : Nat → Half

/-- FREE VALUE: the handler kind after the INIT that is draw `d` (R43, I2). -/
opaque Config.freeKind : Nat → Bool

/-- FREE VALUE: byte register number `i` after the INIT that is draw `d` (R43, I2). `i` is 0 for `R_PORT`,
1 for `R_TLO`, 2 for `R_THI`, 3 to 6 for `M_REC[0..3]` and 6 + j for `TXBUF[j]`, j from 1 to 8. -/
opaque Config.freeByte : Nat → Nat → Byte

/-- FREE VALUE: what memory at address `a` held after the INIT that is draw `d`, before anything wrote
there (R38, R39, I2). -/
opaque Config.freeMem : Nat → Nat → Byte

/-- FREE VALUE: which of the enabled steps is taken by draw `d` of the schedule (R41, R201). -/
opaque Config.freeChoice : Nat → Nat

/-- FREE VALUE: how many steps of other agents a capture operation that became enabled at draw `d` waits at
most: finite, as R201 and R220 assume, and otherwise any number (I8; log entry 12). -/
opaque Config.freeDelay : Nat → Nat

end Sys2Proof
end

