-- ==== Sys2Proof/Machine/Constants.lean ====
section
/-! DEFINITION. The byte constants of 00_scope.md R9, the phase numbers of 10_state.md R30 and R31, and the
configuration State.reset starts with. -/

namespace Sys2Proof.Machine

/-- `TICK_MARK` (R9): the marker byte of a timer-tick record. -/
abbrev tickMark : Byte := 0x00#8

/-- `EDGE_MARK` (R9): the marker byte the edge handler writes. -/
abbrev edgeMark : Byte := 0x01#8

/-- `TERM` (R9): the terminating marker of the text buffer. -/
abbrev termByte : Byte := 0x00#8

/-- `SEP_SPACE` (R9). -/
abbrev sepSpace : Byte := 0x20#8

/-- `LINE_BREAK` (R9). -/
abbrev lineBreak : Byte := 0x0A#8

/-- `H_IDLE` (R30): no handler running. -/
abbrev hIdle : BitVec 3 := 0#3

/-- `H_PORT` (R30): next `RDPORT`. -/
abbrev hPort : BitVec 3 := 1#3

/-- `H_TLO` (R30): next `RDTLO`. -/
abbrev hTlo : BitVec 3 := 2#3

/-- `H_THI` (R30): next `RDTHI`. -/
abbrev hThi : BitVec 3 := 3#3

/-- `H_COMMIT` (R30): next `COMMIT`. -/
abbrev hCommit : BitVec 3 := 4#3

/-- `M_CHK` (R31). -/
abbrev mChk : BitVec 4 := 0#4

/-- `M_RD0` (R31); `M_RD0 + k` is `M_RDk`. -/
abbrev mRd0 : BitVec 4 := 1#4

/-- `M_FWD` (R31). -/
abbrev mFwd : BitVec 4 := 5#4

/-- `M_FMT` (R31). -/
abbrev mFmt : BitVec 4 := 6#4

/-- `M_TX` (R31). -/
abbrev mTx : BitVec 4 := 7#4

/-- `M_SVC` (R31). -/
abbrev mSvc : BitVec 4 := 8#4

/-- The configuration of State.reset: the defaults of R6 to R8 and R11, and for the parameters the spec
leaves OPEN a DESIGN CHOICE: the values 95_test_vectors.md uses, the bases of three disjoint regions, an
empty banner (log entry 2). No statement rests on these values. -/
def defaultConfig : Config where
  topology := .changeOcta
  monMask := 0xFF
  inSlots := 64
  outSlots := 16
  tickQuotaMax := 2
  tokensPerLine := 10
  inBase := 0x100
  varBase := 0x200
  outBase := 0x220
  resetPulseEn := false
  banner := []
  irqPrio := .any

end Sys2Proof.Machine
end

