-- ==== Sys2Proof/Machine/Memory.lean ====
section
/-! DEFINITION. Working memory (20_memory.md R60): a list of (address, byte) pairs in one canonical form,
addresses strictly rising. An address that is not listed has been written by nobody since the last INIT;
what it reads as is said in Machine/Ops.lean (log entry 5). The spec gives addresses no width (R60), so they
are natural numbers. -/

namespace Sys2Proof.Machine

/-- The bytes written so far, by address. -/
abbrev Memory := List Host.Cell

/-- The canonical form: each address once, in rising order. -/
abbrev Memory.wf (m : Memory) : Prop := m.Pairwise fun x y => x.1 < y.1

/-- The byte written last at address `a`, if any. -/
def Memory.byteAt : Memory → Nat → Option Byte
  | [], _ => none
  | (k, b) :: m, a => if k = a then some b else Memory.byteAt m a

/-- `MemWrite(a, 1, v)` (00_scope.md section 7). -/
def Memory.put : Memory → Nat → Byte → Memory
  | [], a, v => [(a, v)]
  | (k, b) :: m, a, v =>
    if a < k then (a, v) :: (k, b) :: m
    else if a = k then (a, v) :: m
    else (k, b) :: Memory.put m a v

end Sys2Proof.Machine
end

