-- ==== Sys2Proof/Machine/State.lean ====
section
/-! DEFINITION. The state of ECIH: every item of 10_state.md R20 and nothing else of the hardware, and five
fields of the model's own (configuration, script, two draw counters, a waiting count). Why a step can stop. The reset
state. -/

namespace Sys2Proof.Machine

/-- A capture record (30_encoding.md R101): the four bytes of a slot at offsets 0 to 3 (20_memory.md R62). -/
structure Record where
  tsLo : Byte
  tsHi : Byte
  port : Byte
  kind : Byte
  deriving DecidableEq, Repr

/-- The labels of the ghost list EVLOG, with the codes 1 to 5 of 60_exceptions.md R211. -/
inductive Label where
  /-- Code 1, by COMMIT: input ring full before the push. -/
  | inOverrun
  /-- Code 2, by DR.FWD: output ring full, the record is an edge. -/
  | outDropEdge
  /-- Code 3, by DR.FWD: output ring full, the record is a tick, quota not zero. -/
  | outDropTick
  /-- Code 4, by DR.FWD: the record is a tick, quota zero. -/
  | tickThrottled
  /-- Code 5, by TX: unsent text, transport not ready. -/
  | txStall
  deriving DecidableEq, Repr

/-- The machine (R20). Items in the order of R20's table; the last five fields are the model's own. -/
structure State where
  /-- `PIN` (R21). -/
  pin : Byte
  /-- `TCNT` (R22). -/
  tcnt : Half
  /-- `EIF` (R24). -/
  eif : BitVec 4
  /-- `TOVF` (R25). -/
  tovf : Bool
  /-- `IE` (R26). -/
  ie : Bool
  /-- `IN_HEAD` (R28), held in 8 bits. -/
  inHead : BitVec 8
  /-- `R_PORT` (R29). -/
  rPort : Byte
  /-- `R_TLO` (R29). -/
  rTlo : Byte
  /-- `R_THI` (R29). -/
  rThi : Byte
  /-- `HPH` (R30): values 5 to 7 are never reached. -/
  hph : BitVec 3
  /-- `HKIND` (R30): true is 1, the edge handler. -/
  hkind : Bool
  /-- `MPH` (R31): values 9 to 15 are never reached. -/
  mph : BitVec 4
  /-- `IN_TAIL` (R32), held in 8 bits. -/
  inTail : BitVec 8
  /-- `M_NE` (R33). -/
  mNe : Bool
  /-- `M_REC` (R33). -/
  mRec : Record
  /-- `QUOTA` (R34). -/
  quota : BitVec 8
  /-- `OUT_HEAD` (R35). -/
  outHead : Half
  /-- `OUT_TAIL` (R35). -/
  outTail : Half
  /-- `LINECNT` (R36). -/
  lineCnt : BitVec 8
  /-- `TXBUF` (R37). -/
  txbuf : Vector Byte 9
  /-- `CUR` (R37). -/
  cur : BitVec 4
  /-- `IRB` and `ORB` (R38, R39): byte `k` of slot `i` at `IN_BASE + 4*i + k`, `OUT_BASE + 4*i + k`
  (20_memory.md R61). -/
  mem : Memory
  /-- `TXLOG` (R40), oldest first. -/
  txLog : List Byte
  /-- `SVCCNT` (R40). -/
  svcCnt : Nat
  /-- `EVLOG` (R40, R211), oldest first. -/
  evLog : List Label
  /-- The model's own: the configuration (R41), which no step changes (log entry 2). -/
  cfg : Config
  /-- The model's own: the step words still to be taken (R113), next first (log entry 1). -/
  script : List Half
  /-- The model's own: the number of the next draw (log entries 1, 3). -/
  draws : Nat
  /-- The model's own: the draw that fixed what unwritten memory holds (log entry 5). -/
  memDraw : Nat
  /-- The model's own: for how many steps of the free schedule a capture operation has been enabled and none
  has been taken (R201, R220; log entry 12). -/
  waited : Nat
  deriving DecidableEq, Repr

/-- The machine stops with a fault. The block itself has none (60_exceptions.md R210): both stand for
accesses R64 says cannot occur, in states that break the bounds of R44, which no run reaches. -/
inductive Fault where
  /-- Raised by COMMIT, DR.RD, FWD.EDGE, FWD.TICK (hence DR.FWD) and FORMAT when the ring index they use is
  not a slot of its ring. Safe: the model stops where nothing is defined (log entry 6). -/
  | noSuchSlot
  /-- Raised by FORMAT and TX when `CUR` is past the end of `TXBUF`. Safe (log entry 6). -/
  | noSuchTextByte
  deriving DecidableEq, Repr

/-- The model refuses a step: a verdict on the script, not a behaviour of the hardware (00_scope.md R13). -/
inductive Refusal where
  /-- Raised by `exec` for an instruction that has no meaning yet. Safe. No arm uses it. -/
  | notModelled (mnemonic : String)
  /-- Raised by the fetch for a step word that is reserved (R111). Safe: the hardware decodes no words. -/
  | reservedWord (w : Half)
  /-- Raised by every operation whose enabling condition does not hold (R13, R113). Safe: the hardware
  cannot perform the operation in that state. -/
  | notEnabled
  /-- Raised by every operation but INIT while `IE = 0`, that is before the first INIT (R26, R240). Safe. -/
  | notStarted
  deriving DecidableEq, Repr

/-- The outcome of one step. -/
abbrev Result := Host.Outcome State Fault Refusal

/-- The machine right after reset: the table of R43, for the default configuration. The items R43 leaves
unspecified are zero here, a DESIGN CHOICE (log entry 4), and so is `PIN`, which reset does not touch; an
INIT step draws them instead (log entry 3). -/
def State.reset : State where
  pin := 0
  tcnt := 0
  eif := 0
  tovf := false
  ie := true
  inHead := 0
  rPort := 0
  rTlo := 0
  rThi := 0
  hph := hIdle
  hkind := false
  mph := mChk
  inTail := 0
  mNe := false
  mRec := ⟨0, 0, 0, 0⟩
  quota := defaultConfig.tickQuotaMax
  outHead := 0
  outTail := 0
  lineCnt := 0
  txbuf := #v[termByte, 0, 0, 0, 0, 0, 0, 0, 0]
  cur := 0
  mem := []
  txLog := []
  svcCnt := 0
  evLog := []
  cfg := defaultConfig
  script := []
  draws := 0
  memDraw := 0
  waited := 0

end Sys2Proof.Machine
end

