-- ==== Sys2Proof/Machine/Operands.lean ====
section
/-! DEFINITION. The values operations work on: the bytes of a record (30_encoding.md R101), the characters of
a token (R104, R108), ring indices and slot addresses (20_memory.md R61, R70), the two bytes of the timer
count (10_state.md R22). -/

namespace Sys2Proof.Machine

/-- Byte `k` of a record, `rec32[8k+7 : 8k]` (R101). -/
def Record.byte (r : Record) (k : BitVec 2) : Byte :=
  match k.toNat with
  | 0 => r.tsLo
  | 1 => r.tsHi
  | 2 => r.port
  | _ => r.kind

/-- `M_REC[k] <- v`. -/
def Record.setByte (r : Record) (k : BitVec 2) (v : Byte) : Record :=
  match k.toNat with
  | 0 => { r with tsLo := v }
  | 1 => { r with tsHi := v }
  | 2 => { r with port := v }
  | _ => { r with kind := v }

/-- `rec32 = {kind, port, ts_hi, ts_lo}` (R101). -/
def Record.rec32 (r : Record) : BitVec 32 := r.kind ++ r.port ++ r.tsHi ++ r.tsLo

/-- The record whose `rec32` is `w` (R101). -/
def Record.ofRec32 (w : BitVec 32) : Record :=
  ⟨w.extractLsb' 0 8, w.extractLsb' 8 8, w.extractLsb' 16 8, w.extractLsb' 24 8⟩

/-- `ts = {ts_hi, ts_lo}` (R101). -/
def Record.ts (r : Record) : Half := r.tsHi ++ r.tsLo

/-- The delta a consumer computes between two records, modulo 65536 (R103). -/
def Record.delta (r1 r2 : Record) : Half := r2.ts - r1.ts

/-- A zero marker byte is a TimerTick record, every other one an Edge record (R102). -/
def Record.isTick (r : Record) : Bool := r.kind == tickMark

/-- The record class `rec32` stands for (R112): `FWD.TICK` or `FWD.EDGE`. -/
def Record.policy (r : Record) : Instr := decodeRecord r.rec32

/-- `hex(n)`: the ASCII code of the uppercase hexadecimal digit of `n` (R108). -/
def hexDigit (n : BitVec 4) : Byte :=
  if n.toNat ≤ 9 then 0x30 + n.zeroExtend 8 else 0x37 + n.zeroExtend 8

/-- The character of a byte's high nibble. -/
def hexHigh (b : Byte) : Byte := hexDigit (b.extractLsb' 4 4)

/-- The character of a byte's low nibble. -/
def hexLow (b : Byte) : Byte := hexDigit (b.extractLsb' 0 4)

/-- The flag digit (R104, R105): `'1'` for a tick, `'0'` for an edge, opposite to the marker byte. -/
def flagDigit (r : Record) : Byte := if r.isTick then 0x31 else 0x30

/-- The nine bytes of TXBUF for a record and its separator (R104). -/
def tokenText (r : Record) (sep : Byte) : Vector Byte 9 :=
  #v[hexHigh r.tsHi, hexLow r.tsHi, hexHigh r.tsLo, hexLow r.tsLo, hexHigh r.port, hexLow r.port,
    flagDigit r, sep, termByte]

/-- The separator and the next LINECNT (42_formatter.md R172), for `N = n` and `LINECNT = cnt`. -/
def lineStep (n cnt : Byte) : Byte × Byte :=
  if cnt.toNat + 1 = n.toNat then (lineBreak, 0) else (sepSpace, cnt + 1)

/-- The marker byte a handler writes (40_capture_handlers.md R136). -/
def marker (hkind : Bool) : Byte := if hkind then edgeMark else tickMark

/-- `TCNT[7:0]` (R22). -/
def tcntLow (t : Half) : Byte := t.extractLsb' 0 8

/-- `TCNT[15:8]` (R22). -/
def tcntHigh (t : Half) : Byte := t.extractLsb' 8 8

/-- `i <- (i + 1) mod S` (00_scope.md R12), for an index held in `w` bits. -/
def nextIndex {w : Nat} (S : Nat) (i : BitVec w) : BitVec w := BitVec.ofNat w ((i.toNat + 1) % S)

/-- `ring_count = (head - tail) mod S` (20_memory.md R70), for indices of the ring. -/
def ringCount (S head tail : Nat) : Nat := (head + S - tail) % S

/-- `ring_empty = (head = tail)` (R70). -/
def ringEmpty (head tail : Nat) : Bool := head == tail

/-- `ring_full = ((head + 1) mod S = tail)` (R70). -/
def ringFull (S head tail : Nat) : Bool := (head + 1) % S == tail

/-- Address of byte 0 of slot `i` of the input ring (R61). -/
def inSlotAddr (c : Config) (i : Nat) : Nat := c.inBase + 4 * i

/-- Address of byte 0 of slot `i` of the output ring (R61). -/
def outSlotAddr (c : Config) (i : Nat) : Nat := c.outBase + 4 * i

end Sys2Proof.Machine
end

