-- ==== Sys2Proof/Machine/Flags.lean ====
section
/-! DEFINITION. The interrupt flags (10_state.md R24, R25): which flags a change of the pins and a tick of the
timer set (44_startup_and_environment.md R197, R198). -/

namespace Sys2Proof.Machine

/-- `(PIN ^ v) & MON_MASK`: the monitored pins that change (R197). -/
def changedPins (c : Config) (old new : Byte) : Byte := (old ^^^ new) &&& c.monMask

/-- In EDGE_QUAD, whether flag `i` is set: its pin, the `i`-th monitored one, has changed. A flag at or
above `popcount(MON_MASK)` has no pin (R24). -/
def quadFlag (mask chg : Byte) (i : Nat) : Bool :=
  match (monitoredPins mask)[i]? with
  | some p => chg.getLsbD p
  | none => false

/-- The EIF bits a change `chg` of monitored pins sets (R197): one per pin in EDGE_QUAD, bit 0 for any pin in
CHANGE_OCTA. -/
def edgeFlags (c : Config) (chg : Byte) : BitVec 4 :=
  match c.topology with
  | .edgeQuad =>
    BitVec.ofBool (quadFlag c.monMask chg 3) ++ BitVec.ofBool (quadFlag c.monMask chg 2) ++
      BitVec.ofBool (quadFlag c.monMask chg 1) ++ BitVec.ofBool (quadFlag c.monMask chg 0)
  | .changeOcta => if chg = 0 then 0 else 1

/-- The EIF bits that exist (R24): the others are hardwired 0. -/
def eifImplemented (c : Config) (i : Nat) : Bool :=
  match c.topology with
  | .edgeQuad => decide (i < popcount c.monMask)
  | .changeOcta => decide (i = 0)

/-- TOVF after a tick that made the count `t`: set by the wrap to 0, never cleared here (R198). -/
def tickFlag (t : Half) (tovf : Bool) : Bool := tovf || t == 0

end Sys2Proof.Machine
end

