-- ==== Sys2Proof/Machine/Ops.lean ====
section
/-! DEFINITION. The shared operations: memory accesses, the ring primitives (20_memory.md R70 to R73), the
emissions of 00_scope.md section 7, the enabling conditions (30_encoding.md R110), entry to and return from a
handler (60_exceptions.md R217, R218). -/

namespace Sys2Proof.Machine

/-- `MemRead(a, 1)`. A byte nothing has written since the last INIT reads as a FREE VALUE, the same at every
read (R38, R39; log entry 5). -/
def State.readByte (s : State) (a : Nat) : Byte :=
  match s.mem.byteAt a with
  | some b => b
  | none => Config.freeMem s.memDraw a

/-- A record read as four byte reads at offsets 0 to 3 (R73). -/
def State.readRecord (s : State) (a : Nat) : Record :=
  ⟨s.readByte a, s.readByte (a + 1), s.readByte (a + 2), s.readByte (a + 3)⟩

/-- A record written as four byte writes at offsets 0 to 3 (R65, R136). -/
def Memory.putRecord (m : Memory) (a : Nat) (r : Record) : Memory :=
  (((m.put a r.tsLo).put (a + 1) r.tsHi).put (a + 2) r.port).put (a + 3) r.kind

/-- The code numbers of the labels (R211). -/
def Label.code : Label → Nat
  | .inOverrun => 1
  | .outDropEdge => 2
  | .outDropTick => 3
  | .tickThrottled => 4
  | .txStall => 5

/-- `emit EV(l)`: ghost only (R211). -/
def State.emitEv (l : Label) (s : State) : State := { s with evLog := s.evLog ++ [l] }

/-- `emit TX(b)`, and the cursor moves past the byte sent (43_transmitter.md R186). -/
def State.emitTx (b : Byte) (s : State) : State := { s with txLog := s.txLog ++ [b], cur := s.cur + 1 }

/-- `emit SVC` (R188). -/
def State.emitSvc (s : State) : State := { s with svcCnt := s.svcCnt + 1 }

/-- `MPH <- p`. -/
def State.setMph (p : BitVec 4) (s : State) : State := { s with mph := p }

/-- `HPH <- p`. -/
def State.setHph (p : BitVec 3) (s : State) : State := { s with hph := p }

/-- TAKING AN INTERRUPT (60_exceptions.md R217), shared by both classes: nothing is saved, the handler's kind
is recorded and control goes to `RDPORT`. The class's flags are cleared by the caller (R131, R132). -/
def State.enterHandler (kind : Bool) (s : State) : State := { s with hkind := kind, hph := hPort }

/-- RETURN FROM INTERRUPT (R218): `HPH <- H_IDLE`, and nothing to restore. -/
def State.returnFromHandler (s : State) : State := { s with hph := hIdle }

/-- `ring_push_unchecked` on the input ring (20_memory.md R72). -/
def State.pushIn (r : Record) (s : State) : State :=
  { s with
    mem := s.mem.putRecord (inSlotAddr s.cfg s.inHead.toNat) r
    inHead := nextIndex s.cfg.inSlots s.inHead }

/-- The writes of a push to the output ring that succeeds (R71). -/
def State.putOut (r : Record) (s : State) : State :=
  { s with
    mem := s.mem.putRecord (outSlotAddr s.cfg s.outHead.toNat) r
    outHead := nextIndex s.cfg.outSlots s.outHead }

/-- `ring_full` of the input ring (R70). -/
def State.inFull (s : State) : Bool := ringFull s.cfg.inSlots s.inHead.toNat s.inTail.toNat

/-- `ring_full` of the output ring (R70). -/
def State.outFull (s : State) : Bool := ringFull s.cfg.outSlots s.outHead.toNat s.outTail.toNat

/-- `ring_push_checked` on the output ring (R71); `none` is FAIL. -/
def State.pushOut (r : Record) (s : State) : Option State :=
  if s.outFull then none else some (s.putOut r)

/-- `ring_pop` on the output ring (R73); `none` is EMPTY. -/
def State.popOut (s : State) : Option (Record × State) :=
  if ringEmpty s.outHead.toNat s.outTail.toNat then none
  else some (s.readRecord (outSlotAddr s.cfg s.outTail.toNat),
    { s with outTail := nextIndex s.cfg.outSlots s.outTail })

/-- `IN_TAIL <- (IN_TAIL + 1) mod IN_SLOTS`: the end of the input pop (41_drain_rate_limiter.md R153). -/
def State.advanceInTail (s : State) : State := { s with inTail := nextIndex s.cfg.inSlots s.inTail }

/-- `QUOTA <- q` (R154, R155). -/
def State.setQuota (q : BitVec 8) (s : State) : State := { s with quota := q }

/-- Rendering of a record into TXBUF, with its separator and LINECNT (42_formatter.md R171, R172). -/
def State.render (r : Record) (s : State) : State :=
  { s with
    txbuf := tokenText r (lineStep s.cfg.tokensPerLine s.lineCnt).1
    lineCnt := (lineStep s.cfg.tokensPerLine s.lineCnt).2
    cur := 0 }

/-- `TXBUF[CUR]`; `none` when CUR is past the buffer. -/
def State.curByte (s : State) : Option Byte := s.txbuf[s.cur.toNat]?

/-- The pins take the levels `v` and the flags of the monitored ones that change are set (R197). -/
def State.movePins (v : Byte) (s : State) : State :=
  { s with pin := v, eif := s.eif ||| edgeFlags s.cfg (changedPins s.cfg s.pin v) }

/-- One timer tick (R198). -/
def State.tick (s : State) : State := { s with tcnt := s.tcnt + 1, tovf := tickFlag (s.tcnt + 1) s.tovf }

/-- `n` timer ticks (R198). -/
def State.ticks : Nat → State → State
  | 0, s => s
  | n + 1, s => State.ticks n s.tick

/-- The writes of INIT (44_startup_and_environment.md R196). The unspecified items take free values of this
draw (log entry 3), and what memory holds is the draw's too (log entry 5). `PIN` is not written. -/
def State.initialize (s : State) : State :=
  { s with
    eif := 0, tovf := false
    inHead := 0, inTail := 0, hph := hIdle
    outHead := 0, outTail := 0, mph := mChk, mNe := false
    quota := s.cfg.tickQuotaMax, lineCnt := 0
    cur := 0
    txLog := [], svcCnt := 0, evLog := []
    tcnt := Config.freeTcnt s.draws
    rPort := Config.freeByte s.draws 0
    rTlo := Config.freeByte s.draws 1
    rThi := Config.freeByte s.draws 2
    hkind := Config.freeKind s.draws
    mRec := ⟨Config.freeByte s.draws 3, Config.freeByte s.draws 4, Config.freeByte s.draws 5,
      Config.freeByte s.draws 6⟩
    txbuf := #v[termByte, Config.freeByte s.draws 7, Config.freeByte s.draws 8, Config.freeByte s.draws 9,
      Config.freeByte s.draws 10, Config.freeByte s.draws 11, Config.freeByte s.draws 12,
      Config.freeByte s.draws 13, Config.freeByte s.draws 14]
    mem := []
    memDraw := s.draws
    draws := s.draws + 1
    ie := true }

/-- A MAIN operation is enabled at its phase, while no handler runs (10_state.md R30, R31). -/
def mainAt (p : BitVec 4) (s : State) : Bool := s.ie && s.hph == hIdle && s.mph == p

/-- An operation inside a handler is enabled at its phase (R30). -/
def handlerAt (p : BitVec 3) (s : State) : Bool := s.ie && s.hph == p

/-- The enabling condition of each operation (30_encoding.md R110 and the operation's own rule). The two
record classes are not steps (R154, R155), so they are never enabled as such. -/
def enabled (i : Instr) (s : State) : Bool :=
  match i with
  | .init => true
  | .pin _ => s.ie
  | .tmr n => s.ie && n != 0
  | .enterE => s.ie && s.hph == hIdle && s.eif != 0 && !(s.cfg.irqPrio == .tickFirst && s.tovf)
  | .enterT => s.ie && s.hph == hIdle && s.tovf && !(s.cfg.irqPrio == .edgeFirst && s.eif != 0)
  | .rdport => handlerAt hPort s
  | .rdtlo => handlerAt hTlo s
  | .rdthi => handlerAt hThi s
  | .commit => handlerAt hCommit s
  | .drChk => mainAt mChk s
  | .drRd k => mainAt (mRd0 + k.zeroExtend 4) s
  | .drFwd => mainAt mFwd s
  | .format => mainAt mFmt s
  | .tx _ => mainAt mTx s
  | .service => mainAt mSvc s
  | .fwdTick _ _ _ => false
  | .fwdEdge _ _ _ _ => false

/-- An operation that is not enabled is refused (00_scope.md R13); before the first INIT the refusal says so
(70_reset_and_hazards.md R240). -/
def whenEnabled (i : Instr) (s : State) (k : Result) : Result :=
  if enabled i s then k else .refused (if s.ie then .notEnabled else .notStarted)

/-- An access to slot `i` of the input ring; an index that is no slot faults (log entry 6). -/
def withInSlot (i : BitVec 8) (s : State) (k : Result) : Result :=
  if i.toNat < s.cfg.inSlots then k else .fault .noSuchSlot

/-- An access to slot `i` of the output ring; an index that is no slot faults (log entry 6). -/
def withOutSlot (i : Half) (s : State) (k : Result) : Result :=
  if i.toNat < s.cfg.outSlots then k else .fault .noSuchSlot

/-- The rest of a step after a part that may stop. -/
def andThen (r : Result) (k : State → State) : Result :=
  match r with
  | .next s => .next (k s)
  | .fault f => .fault f
  | .refused f => .refused f

end Sys2Proof.Machine
end

