-- ==== Sys2Proof/Machine/Capture.lean ====
section
/-! DEFINITION. The capture interrupt handlers (40_capture_handlers.md): ENTER.E, ENTER.T, RDPORT, RDTLO, RDTHI,
COMMIT. -/

namespace Sys2Proof.Machine

/-- `ENTER.E` (R131): every pending flag of the edge class is cleared. -/
def execEnterE (s : State) : Result :=
  whenEnabled .enterE s (.next (State.enterHandler true { s with eif := 0 }))

/-- `ENTER.T` (R132). -/
def execEnterT (s : State) : Result :=
  whenEnabled .enterT s (.next (State.enterHandler false { s with tovf := false }))

/-- `RDPORT` (R133): all eight bits, unmasked, as they are now. -/
def execRdport (s : State) : Result :=
  whenEnabled .rdport s (.next (State.setHph hTlo { s with rPort := s.pin }))

/-- `RDTLO` (R134): the high byte is not latched. -/
def execRdtlo (s : State) : Result :=
  whenEnabled .rdtlo s (.next (State.setHph hThi { s with rTlo := tcntLow s.tcnt }))

/-- `RDTHI` (R135): the count is read afresh. -/
def execRdthi (s : State) : Result :=
  whenEnabled .rdthi s (.next (State.setHph hCommit { s with rThi := tcntHigh s.tcnt }))

/-- The record a handler stores (R136). -/
def State.captured (s : State) : Record := ⟨s.rTlo, s.rThi, s.rPort, marker s.hkind⟩

/-- The ghost test of COMMIT (R136): the only use a capture operation makes of `IN_TAIL`. -/
def State.noteOverrun (s : State) : State := if s.inFull then s.emitEv .inOverrun else s

/-- `COMMIT` (R136): unconditional push, then return from the interrupt. -/
def execCommit (s : State) : Result :=
  whenEnabled .commit s
    (withInSlot s.inHead s (.next (s.noteOverrun.pushIn s.captured).returnFromHandler))

end Sys2Proof.Machine
end

