-- ==== Sys2Proof/Machine/Drain.lean ====
section
/-! DEFINITION. The drain step and the tick throttle (41_drain_rate_limiter.md): DR.CHK, DR.RD, DR.FWD, and the
record classes FWD.EDGE, FWD.TICK that DR.FWD dispatches on. -/

namespace Sys2Proof.Machine

/-- `DR.CHK` (R151): the only read MAIN makes of `IN_HEAD`. -/
def execDrChk (s : State) : Result :=
  whenEnabled .drChk s
    (.next (State.setMph mRd0 { s with mNe := !ringEmpty s.inHead.toNat s.inTail.toNat }))

/-- `DR.RD k` (R152): with `M_NE = 0` nothing is read. -/
def execDrRd (k : BitVec 2) (s : State) : Result :=
  whenEnabled (.drRd k) s
    (if s.mNe then
      withInSlot s.inTail s (.next (State.setMph (s.mph + 1)
        { s with mRec := s.mRec.setByte k (s.readByte (inSlotAddr s.cfg s.inTail.toNat + k.toNat)) }))
    else .next (s.setMph (s.mph + 1)))

/-- A checked push whose result is looked at by the ghost label only (R153, R154, R155). -/
def State.forward (onFail : Label) (r : Record) (s : State) : State :=
  match s.pushOut r with
  | some t => t
  | none => s.emitEv onFail

/-- `FWD.EDGE` (R154): the quota is restored whether or not the push failed. Part of DR.FWD, without an
enabling condition of its own (log entry 11). -/
def execFwdEdge (tsLo tsHi port kind : Byte) (s : State) : Result :=
  withOutSlot s.outHead s
    (.next ((s.forward .outDropEdge ⟨tsLo, tsHi, port, kind⟩).setQuota s.cfg.tickQuotaMax))

/-- `FWD.TICK` (R155): a forwarded tick uses one unit of quota, whether or not the push failed; with no
quota left the record is dropped. Part of DR.FWD (log entry 11). -/
def execFwdTick (tsLo tsHi port : Byte) (s : State) : Result :=
  if s.quota = 0 then .next (s.emitEv .tickThrottled)
  else withOutSlot s.outHead s
    (.next ((s.forward .outDropTick ⟨tsLo, tsHi, port, tickMark⟩).setQuota (s.quota - 1)))

/-- The dispatch of DR.FWD on the popped record (R112, R153). -/
def applyPolicy (r : Record) (s : State) : Result :=
  if r.isTick then execFwdTick r.tsLo r.tsHi r.port s
  else execFwdEdge r.tsLo r.tsHi r.port r.kind s

/-- `DR.FWD` (R153). -/
def execDrFwd (s : State) : Result :=
  whenEnabled .drFwd s
    (if s.mNe then andThen (applyPolicy s.mRec s.advanceInTail) (State.setMph mFmt)
    else .next (s.setMph mFmt))

end Sys2Proof.Machine
end

