-- ==== Sys2Proof/Machine/Environment.lean ====
section
/-! DEFINITION. Startup and environment operations (44_startup_and_environment.md): INIT, PIN, TMR. -/

namespace Sys2Proof.Machine

/-- `INIT` (R196): the reset state, from any state; also the effect of an external reset (R200). -/
def execInit (s : State) : Result := whenEnabled .init s (.next s.initialize)

/-- `PIN v` (R197). -/
def execPin (v : Byte) (s : State) : Result := whenEnabled (.pin v) s (.next (s.movePins v))

/-- `TMR n` (R198). -/
def execTmr (n : Byte) (s : State) : Result := whenEnabled (.tmr n) s (.next (State.ticks n.toNat s))

end Sys2Proof.Machine
end

