-- ==== Sys2Proof/Machine/Output.lean ====
section
/-! DEFINITION. The output formatter (42_formatter.md): FORMAT; the transmitter and the transport's service
(43_transmitter.md): TX, SERVICE. -/

namespace Sys2Proof.Machine

/-- `FORMAT` (R171): when the text is consumed and a record waits, pop and render it. -/
def execFormat (s : State) : Result :=
  whenEnabled .format s
    (match s.curByte with
    | none => .fault .noSuchTextByte
    | some b =>
      if b = termByte then
        match s.popOut with
        | none => .next (s.setMph mTx)
        | some (r, t) => withOutSlot s.outTail s (.next ((t.render r).setMph mTx))
      else .next (s.setMph mTx))

/-- `TX r` (R186): at most one byte, and only when the transport is ready. -/
def execTx (r : Bool) (s : State) : Result :=
  whenEnabled (.tx r) s
    (match s.curByte with
    | none => .fault .noSuchTextByte
    | some b =>
      if b = termByte then .next (s.setMph mSvc)
      else if r then .next ((s.emitTx b).setMph mSvc)
      else .next ((s.emitEv .txStall).setMph mSvc))

/-- `SERVICE` (R188). -/
def execService (s : State) : Result := whenEnabled .service s (.next (s.emitSvc.setMph mChk))

end Sys2Proof.Machine
end

