-- ==== Sys2Proof/Machine/Dispatch.lean ====
section
/-! DEFINITION. The dispatch: one arm per row of opcode_table.json. -/

namespace Sys2Proof.Machine

/-- What each operation does to the state (30_encoding.md R110, R112). -/
def exec (i : Instr) (s : State) : Host.Outcome State Fault Refusal :=
  match i with
  | .init => Sys2Proof.Machine.execInit s
  | .pin v => Sys2Proof.Machine.execPin v s
  | .tmr n => Sys2Proof.Machine.execTmr n s
  | .enterE => Sys2Proof.Machine.execEnterE s
  | .enterT => Sys2Proof.Machine.execEnterT s
  | .rdport => Sys2Proof.Machine.execRdport s
  | .rdtlo => Sys2Proof.Machine.execRdtlo s
  | .rdthi => Sys2Proof.Machine.execRdthi s
  | .commit => Sys2Proof.Machine.execCommit s
  | .drChk => Sys2Proof.Machine.execDrChk s
  | .drRd k => Sys2Proof.Machine.execDrRd k s
  | .drFwd => Sys2Proof.Machine.execDrFwd s
  | .format => Sys2Proof.Machine.execFormat s
  | .tx r => Sys2Proof.Machine.execTx r s
  | .service => Sys2Proof.Machine.execService s
  | .fwdTick tsLo tsHi port => Sys2Proof.Machine.execFwdTick tsLo tsHi port s
  | .fwdEdge tsLo tsHi port kind => Sys2Proof.Machine.execFwdEdge tsLo tsHi port kind s

end Sys2Proof.Machine
end

