-- ==== Sys2Proof/Machine/Fetch.lean ====
section
/-! DEFINITION. Which step is taken next. The block fetches nothing (20_memory.md R79): which enabled agent
steps is the schedule, no state of the hardware (10_state.md R41). The model takes the next word of a script
(30_encoding.md R113); when there is none, the schedule is a free choice among the enabled steps
(44_startup_and_environment.md R201, 00_scope.md R15), fair to the capture unit (R201, 60_exceptions.md
R220). Log entries 1, 10 and 12. -/

namespace Sys2Proof.Machine

/-- Every step word's operation, with every operand (R109, R110). -/
def allSteps : List Instr :=
  List.flatten [
    [.init, .enterE, .enterT, .rdport, .rdtlo, .rdthi, .commit, .drChk, .drFwd, .format, .service],
    [.tx false, .tx true],
    (List.range 4).map fun k => .drRd (BitVec.ofNat 2 k),
    (List.range 256).map fun v => .pin (BitVec.ofNat 8 v),
    (List.range 255).map fun n => .tmr (BitVec.ofNat 8 (n + 1))]

/-- The steps enabled in `s`. -/
def enabledSteps (s : State) : List Instr := allSteps.filter fun i => enabled i s

/-- The capture unit's operations (R110): the two entries and the rest of a handler. -/
def captureSteps : List Instr := [.enterE, .enterT, .rdport, .rdtlo, .rdthi, .commit]

/-- The capture operations enabled in `s`: an ENTER, or the next operation of the handler that runs. -/
def captureEnabled (s : State) : List Instr := captureSteps.filter fun i => enabled i s

/-- A capture operation has waited as long as the free, finite delay drawn when the wait began allows: the
capture unit takes the next step (R201, R220; log entry 12). -/
def captureDue (s : State) : Bool :=
  !(captureEnabled s).isEmpty && decide (Config.freeDelay (s.draws - s.waited) ≤ s.waited)

/-- The steps the free schedule chooses from: the enabled ones, of which those of the capture unit alone
once one of them is due. -/
def candidates (s : State) : List Instr := if captureDue s then captureEnabled s else enabledSteps s

/-- The step the schedule takes when no script says which. -/
def drawnStep (s : State) : Instr :=
  (candidates s).getD (Config.freeChoice s.draws % (candidates s).length) .init

/-- The schedule has drawn step `i`. A wait goes on when a capture operation is enabled and `i` is none. -/
def State.countDraw (i : Instr) (s : State) : State :=
  { s with
    draws := s.draws + 1
    waited := if (captureEnabled s).isEmpty || i.agent == .isr then 0 else s.waited + 1 }

/-- The next operation, and the state it is applied to. A reserved word is refused (R111). -/
def fetch (s : State) : Except Refusal (Instr × State) :=
  match s.script with
  | w :: rest =>
    match decodeStep w with
    | .ok i => .ok (i, { s with script := rest })
    | .error _ => .error (.reservedWord w)
  | [] => .ok (drawnStep s, s.countDraw (drawnStep s))

/-- MAIN at phase `p` with no handler running. -/
def State.atMain (p : BitVec 4) (s : State) : State := { s with ie := true, hph := hIdle, mph := p }

/-- The capture unit at phase `p`. -/
def State.atHandler (p : BitVec 3) (s : State) : State := { s with ie := true, hph := p }

/-- `s` with the phase registers, the interrupt enable and the pending flags that select operation `i`
(R110), so that it is the one performed next. The record classes are selected by DR.FWD's phase (R153). -/
def selectStep (i : Instr) (s : State) : State :=
  match i with
  | .init => s
  | .pin _ => { s with ie := true }
  | .tmr _ => { s with ie := true }
  | .enterE =>
    { s with
      ie := true, hph := hIdle
      eif := if s.eif = 0 then 1 else s.eif
      tovf := if s.cfg.irqPrio = .tickFirst then false else s.tovf }
  | .enterT =>
    { s with
      ie := true, hph := hIdle, tovf := true
      eif := if s.cfg.irqPrio = .edgeFirst then 0 else s.eif }
  | .rdport => s.atHandler hPort
  | .rdtlo => s.atHandler hTlo
  | .rdthi => s.atHandler hThi
  | .commit => s.atHandler hCommit
  | .drChk => s.atMain mChk
  | .drRd k => s.atMain (mRd0 + k.zeroExtend 4)
  | .drFwd => s.atMain mFwd
  | .format => s.atMain mFmt
  | .tx _ => s.atMain mTx
  | .service => s.atMain mSvc
  | .fwdTick _ _ _ => s.atMain mFwd
  | .fwdEdge _ _ _ _ => s.atMain mFwd

/-- A step word at the head of the script, its operation selected. A reserved word is placed as it is. -/
def placeStep (w : Half) (s : State) : State :=
  match decodeStep w with
  | .ok i => { selectStep i s with script := w :: s.script }
  | .error _ => { s with script := w :: s.script }

/-- A record where the hardware decodes one (R112): in `M_REC`, popped, with DR.FWD (word `0x4200`) next. -/
def placeRecord (r : BitVec 32) (s : State) : State :=
  { selectStep (decodeRecord r) s with mNe := true, mRec := Record.ofRec32 r, script := 0x4200#16 :: s.script }

/-- A word of opcode_table.json placed so that the next step runs its operation; one that is no word changes
nothing. -/
def placeWord (nbits w : Nat) (s : State) : State :=
  match tableWord nbits w with
  | some (.step v) => placeStep v s
  | some (.record r) => placeRecord r s
  | none => s

end Sys2Proof.Machine
end

