-- ==== Sys2Proof/Machine/Script.lean ====
section
/-! DEFINITION. Scripts (30_encoding.md R113): sequences of operations, what it is to run one and to be well
formed from a state, the pseudo-operations (R114), and the textual form. Details of the text the spec does
not give are in log entry 16. -/

namespace Sys2Proof.Machine

/-- The operations of a script, one after the other, up to the first that stops. -/
def runScript : List Instr → State → Result
  | [], s => .next s
  | i :: rest, s =>
    match exec i s with
    | .next t => runScript rest t
    | .fault f => .fault f
    | .refused r => .refused r

/-- Every operation is enabled in the state in which it is reached (R113). -/
def scriptOk : List Instr → State → Bool
  | [], _ => true
  | i :: rest, s =>
    enabled i s &&
      match exec i s with
      | .next t => scriptOk rest t
      | .fault _ => false
      | .refused _ => false

/-- The step words of a script; a record class has none (R112, R114). -/
def scriptWords : List Instr → List Half
  | [] => []
  | i :: rest =>
    match encode i with
    | .step w => w :: scriptWords rest
    | .record _ => scriptWords rest

/-- The pseudo-operations (R114). -/
inductive Pseudo where
  | capEdge
  | capTick
  | edge (v : Byte)
  | drain
  | iter (r : Bool)
  | run (c : Nat) (r : Bool)
  | tmrAdv (m : Nat)
  deriving DecidableEq, Repr

/-- The rest of a handler after its entry (R114). -/
def handlerBody : List Instr := [.rdport, .rdtlo, .rdthi, .commit]

/-- `DRAIN` (R114): the drain step with no handler inside. -/
def drainSteps : List Instr := [.drChk, .drRd 0, .drRd 1, .drRd 2, .drRd 3, .drFwd]

/-- `ITER r` (R114): one main-loop iteration with no interruption. -/
def iterSteps (r : Bool) : List Instr := drainSteps ++ [.format, .tx r, .service]

/-- The expansion of a pseudo-operation (R114), independent of the state. -/
def Pseudo.expand : Pseudo → List Instr
  | .capEdge => .enterE :: handlerBody
  | .capTick => .enterT :: handlerBody
  | .edge v => .pin v :: .enterE :: handlerBody
  | .drain => drainSteps
  | .iter r => iterSteps r
  | .run c r => (List.replicate c (iterSteps r)).flatten
  | .tmrAdv m =>
    List.replicate (m / 255) (.tmr 255) ++ if m % 255 = 0 then [] else [.tmr (BitVec.ofNat 8 (m % 255))]

/-- The nibble that R108 prints as `c`, in either case (log entry 16): `hex` read backwards. -/
def digitValue (c : Char) : Option Nat :=
  (List.range 16).find? fun n => (hexDigit (BitVec.ofNat 4 n)).toNat == c.toUpper.toNat

/-- The value of digits in a base, after a value already read. -/
def digitsValue (base : Nat) : List Char → Nat → Option Nat
  | [], acc => some acc
  | c :: rest, acc =>
    match digitValue c with
    | some d => if d < base then digitsValue base rest (acc * base + d) else none
    | none => none

/-- A number, decimal or `0x` hexadecimal (R113). -/
def numberValue : List Char → Option Nat
  | [] => none
  | ['0', 'x'] => none
  | '0' :: 'x' :: rest => digitsValue 16 rest 0
  | digits => digitsValue 10 digits 0

/-- The words of a line: `#` starts a comment; blanks and the comma of `RUN c, r` separate. -/
def lineWords (line : List Char) : List (List Char) :=
  ((line.takeWhile (· ≠ '#')).splitOnP fun c => c = ' ' ∨ c = '\t' ∨ c = '\r' ∨ c = ',').filter (· ≠ [])

/-- An operation or pseudo-operation without operand. -/
def bareOp (name : List Char) : Option (List Instr) :=
  if name = "INIT".toList then some [.init]
  else if name = "ENTER.E".toList then some [.enterE]
  else if name = "ENTER.T".toList then some [.enterT]
  else if name = "RDPORT".toList then some [.rdport]
  else if name = "RDTLO".toList then some [.rdtlo]
  else if name = "RDTHI".toList then some [.rdthi]
  else if name = "COMMIT".toList then some [.commit]
  else if name = "DR.CHK".toList then some [.drChk]
  else if name = "DR.FWD".toList then some [.drFwd]
  else if name = "FORMAT".toList then some [.format]
  else if name = "SERVICE".toList then some [.service]
  else if name = "CAP.EDGE".toList then some Pseudo.capEdge.expand
  else if name = "CAP.TICK".toList then some Pseudo.capTick.expand
  else if name = "DRAIN".toList then some Pseudo.drain.expand
  else none

/-- A value in the range `lo` to `hi` of an operand (R109, R114). -/
def inRange (lo hi n : Nat) (ops : List Instr) : Option (List Instr) :=
  if lo ≤ n ∧ n ≤ hi then some ops else none

/-- An operation or pseudo-operation with one operand. -/
def unaryOp (name : List Char) (n : Nat) : Option (List Instr) :=
  if name = "PIN".toList then inRange 0 255 n [.pin (BitVec.ofNat 8 n)]
  else if name = "TMR".toList then inRange 1 255 n [.tmr (BitVec.ofNat 8 n)]
  else if name = "DR.RD".toList then inRange 0 3 n [.drRd (BitVec.ofNat 2 n)]
  else if name = "TX".toList then inRange 0 1 n [.tx (n == 1)]
  else if name = "EDGE".toList then inRange 0 255 n (Pseudo.edge (BitVec.ofNat 8 n)).expand
  else if name = "ITER".toList then inRange 0 1 n (Pseudo.iter (n == 1)).expand
  else if name = "TMR.ADV".toList then inRange 1 65535 n (Pseudo.tmrAdv n).expand
  else none

/-- One line of a script (R113), its pseudo-operation expanded; a blank line is no operation. -/
def parseLine (line : List Char) : Option (List Instr) :=
  match lineWords line with
  | [] => some []
  | [name] => bareOp name
  | [name, arg] =>
    match numberValue arg with
    | some n => unaryOp name n
    | none => none
  | [name, arg, arg2] =>
    match numberValue arg, numberValue arg2 with
    | some c, some r =>
      if name = "RUN".toList then inRange 0 1 r (Pseudo.run c (r == 1)).expand else none
    | _, _ => none
  | _ => none

/-- The lines of a script, in order. -/
def parseLines : List (List Char) → Option (List Instr)
  | [] => some []
  | line :: rest =>
    match parseLine line, parseLines rest with
    | some ops, some more => some (ops ++ more)
    | _, _ => none

/-- A script in its textual form (R113): one operation per line. `none` if a line is none. -/
def parseScript (text : String) : Option (List Instr) := parseLines (text.toList.splitOn '\n')

end Sys2Proof.Machine
end

