-- ==== Sys2Proof/Safety.lean ====
section
/-! DEFINITION. What claims about ECIH are stated in: the invariant of 10_state.md R44, the records a ring
holds (20_memory.md R70, R74), which slots have been written (70_reset_and_hazards.md R243), what is
observable and what is ghost (00_scope.md R14, R40), and which state belongs to which context (R20, R42). -/

namespace Sys2Proof.Machine

/-- R44: the four ring indices are slots of their rings. -/
abbrev State.indicesInRange (s : State) : Prop :=
  s.inHead.toNat < s.cfg.inSlots ∧ s.inTail.toNat < s.cfg.inSlots ∧
    s.outHead.toNat < s.cfg.outSlots ∧ s.outTail.toNat < s.cfg.outSlots

/-- R44: the counters are in their ranges. -/
abbrev State.countersInRange (s : State) : Prop :=
  s.quota ≤ s.cfg.tickQuotaMax ∧ s.lineCnt.toNat < s.cfg.tokensPerLine.toNat

/-- R44: the phases are ones that are reached. -/
abbrev State.phasesInRange (s : State) : Prop := s.hph ≤ hCommit ∧ s.mph ≤ mSvc

/-- R44: the cursor is in the buffer, no marker lies before it, and one lies at it or after it. -/
abbrev State.textTerminated (s : State) : Prop :=
  s.cur.toNat ≤ 8 ∧ (∀ j : Fin 9, j.val < s.cur.toNat → s.txbuf[j] ≠ termByte) ∧
    ∃ j : Fin 9, s.cur.toNat ≤ j.val ∧ s.txbuf[j] = termByte

/-- R24: the flag bits that do not exist read as 0. -/
abbrev State.flagsHardwired (s : State) : Prop :=
  ∀ i : Fin 4, eifImplemented s.cfg i.val = false → s.eif.getLsbD i.val = false

/-- The invariant of every state a run reaches: R44, with the hardwired flags of R24, a legal configuration
(R5 to R11) and the canonical form of memory. -/
abbrev State.Inv (s : State) : Prop :=
  s.cfg.wf ∧ s.mem.wf ∧ s.indicesInRange ∧ s.countersInRange ∧ s.phasesInRange ∧ s.textTerminated ∧
    s.flagsHardwired

/-- The slots of a ring from its tail to its head, in pop order (R70, R73). -/
def ringSlots (S head tail : Nat) : List Nat := (List.range (ringCount S head tail)).map fun j => (tail + j) % S

/-- The records the output ring holds, in the order they will be popped. -/
def State.outQueue (s : State) : List Record :=
  (ringSlots s.cfg.outSlots s.outHead.toNat s.outTail.toNat).map fun i => s.readRecord (outSlotAddr s.cfg i)

/-- The records the input ring holds, in the order they will be popped. -/
def State.inQueue (s : State) : List Record :=
  (ringSlots s.cfg.inSlots s.inHead.toNat s.inTail.toNat).map fun i => s.readRecord (inSlotAddr s.cfg i)

/-- All four bytes of the slot at `a` have been written since the last INIT. -/
def Memory.slotWritten (m : Memory) (a : Nat) : Bool :=
  (m.byteAt a).isSome && (m.byteAt (a + 1)).isSome && (m.byteAt (a + 2)).isSome && (m.byteAt (a + 3)).isSome

/-- MAIN is between a DR.CHK that found a record and the DR.FWD that ends the pop. -/
abbrev State.midPop (s : State) : Prop := s.mNe = true ∧ mRd0 ≤ s.mph ∧ s.mph ≤ mFwd

/-- R243: every slot a pop may read has been written. In the middle of a pop that an overrun has caught up
with (R246), that is every slot of the input ring. -/
abbrev State.ringsWritten (s : State) : Prop :=
  (∀ i ∈ ringSlots s.cfg.inSlots s.inHead.toNat s.inTail.toNat,
      s.mem.slotWritten (inSlotAddr s.cfg i) = true) ∧
  (∀ i ∈ ringSlots s.cfg.outSlots s.outHead.toNat s.outTail.toNat,
      s.mem.slotWritten (outSlotAddr s.cfg i) = true) ∧
  (s.midPop → s.mem.slotWritten (inSlotAddr s.cfg s.inTail.toNat) = true ∧
    (s.inHead = s.inTail → ∀ i < s.cfg.inSlots, s.mem.slotWritten (inSlotAddr s.cfg i) = true))

/-- The state without the ghost list of labels, which no hardware operation reads (R40, R211). -/
def State.withoutLabels (s : State) : State := { s with evLog := [] }

/-- The state with all three ghost items replaced (R40). -/
def State.withGhosts (log : List Byte) (cnt : Nat) (ev : List Label) (s : State) : State :=
  { s with txLog := log, svcCnt := cnt, evLog := ev }

/-- `s` with every register MAIN owns, and its ghost items, taken from `m` (R20). The output ring's storage, also
MAIN's, stays: `sameForCapture` is about it. -/
def State.withMainOf (s m : State) : State :=
  { s with
    mph := m.mph, inTail := m.inTail, mNe := m.mNe, mRec := m.mRec, quota := m.quota
    outHead := m.outHead, outTail := m.outTail, lineCnt := m.lineCnt, txbuf := m.txbuf, cur := m.cur
    txLog := m.txLog, svcCnt := m.svcCnt }

/-- `s` and `m` differ at most in items MAIN owns (R20), the bytes of the output ring included, and in the
labels. -/
def State.sameForCapture (s m : State) : Prop :=
  m = { (s.withMainOf m) with mem := m.mem, evLog := m.evLog } ∧
    ∀ x, x < s.cfg.outBase ∨ s.cfg.outBase + 4 * s.cfg.outSlots ≤ x → m.readByte x = s.readByte x

/-- Two outcomes of one kind: the same stop, or next states in the relation `R`. -/
def sameOutcome (R : State → State → Prop) : Result → Result → Prop
  | .next s, .next m => R s m
  | .fault f, .fault g => f = g
  | .refused a, .refused b => a = b
  | _, _ => False

/-- The outcome with a function applied to its next state. -/
def mapNext (f : State → State) (r : Result) : Result := andThen r f

/-- A sequence of steps from `s` reaches `t`. -/
inductive Reaches : State → State → Prop where
  | refl (s : State) : Reaches s s
  | tail {s t u : State} (h : Reaches s t) (hs : step t = .next u) : Reaches s u

/-- The operation a step of `s` performs, if any. -/
def taken (s : State) : Option Instr :=
  match fetch s with
  | .ok (i, _) => some i
  | .error _ => none

/-- The state `n` steps after `s`; a step that stops leaves it where it is. -/
def State.after (s : State) : Nat → State
  | 0 => s
  | n + 1 =>
    match step (s.after n) with
    | .next t => t
    | .fault _ => s.after n
    | .refused _ => s.after n

/-- The run from `s` never ends (00_scope.md R15). -/
abbrev State.RunsForever (s : State) : Prop := ∀ n, step (s.after n) = .next (s.after (n + 1))

/-- Weak fairness of the run from `s` to operation `i` (60_exceptions.md R220): if from some point on `i` stays
enabled, it is taken at that point or later. -/
def State.WeaklyFair (s : State) (i : Instr) : Prop :=
  ∀ n, (∀ m, n ≤ m → enabled i (s.after m) = true) → ∃ m, n ≤ m ∧ taken (s.after m) = some i

/-- Every handler whose ENTER is enabled is eventually entered (44_startup_and_environment.md R201): that one,
or the other class's first (R216), unless an INIT, which clears the flags, comes first (R196). -/
def State.HandlersEntered (s : State) : Prop :=
  ∀ n, enabled .enterE (s.after n) = true ∨ enabled .enterT (s.after n) = true →
    ∃ m i, n ≤ m ∧ taken (s.after m) = some i ∧ (i = .enterE ∨ i = .enterT ∨ i = .init)

/-- A handler that has been entered runs to its COMMIT, unless an INIT cuts it off, with no MAIN step and no
ENTER in between (R201, R219). -/
def State.HandlersCompleted (s : State) : Prop :=
  ∀ n, (s.after n).hph ≠ hIdle →
    ∃ m i, n ≤ m ∧ taken (s.after m) = some i ∧ (i = .commit ∨ i = .init) ∧
      ∀ j k, n ≤ j → j ≤ m → taken (s.after j) = some k → k.agent ≠ .main ∧ k ≠ .enterE ∧ k ≠ .enterT

/-- Where `p` does not hold, operation `i` is refused: `notStarted` before the first INIT, else
`notEnabled` (00_scope.md R13, 70_reset_and_hazards.md R240). -/
def refusedUnless (i : Instr) (p : State → Prop) : Prop :=
  ∀ s, ¬ p s → exec i s = .refused (if s.ie then .notEnabled else .notStarted)

/-- MAIN stands at phase `p`, started and with no handler running (10_state.md R30, R31). -/
abbrev State.mainReady (p : BitVec 4) (s : State) : Prop := s.ie = true ∧ s.hph = hIdle ∧ s.mph = p

/-- The handler stands at phase `p` (R30). -/
abbrev State.handlerReady (p : BitVec 3) (s : State) : Prop := s.ie = true ∧ s.hph = p

/-- Records taken from the input ring one after the other and given to the throttle (R156). -/
def applyPolicies : List Record → State → Result
  | [], s => .next s
  | r :: rest, s =>
    match exec r.policy s with
    | .next t => applyPolicies rest t
    | .fault f => .fault f
    | .refused f => .refused f

/-- The MAIN operation of each phase (R31), for the readiness `r` a TX would sample. -/
def mainOp (r : Bool) (p : BitVec 4) : Option Instr :=
  match p.toNat with
  | 0 => some .drChk
  | 1 => some (.drRd 0)
  | 2 => some (.drRd 1)
  | 3 => some (.drRd 2)
  | 4 => some (.drRd 3)
  | 5 => some .drFwd
  | 6 => some .format
  | 7 => some (.tx r)
  | 8 => some .service
  | _ => none

end Sys2Proof.Machine
end

