-- ==== Sys2Proof/Certificates/Slice0/Obligations.lean ====
section
/-! DEFINITION. The statements for the provers. -/

open Sys2Proof Sys2Proof.Machine

/-! ### Encoding -/

/-- 30_encoding.md R107, R109, R111: the words of test vector V17, read bit by bit from the table of R110. -/
def Obligations.TableWordsDecode : Prop :=
  decodeTableWord 16 0b0001000000000000 = some .init ∧
  decodeTableWord 16 0b0010000010100101 = some (.pin 0xA5) ∧
  decodeTableWord 16 0b0010000111111111 = some (.tmr 255) ∧
  decodeTableWord 16 0b0011010100000000 = some .commit ∧
  decodeTableWord 16 0b0100000100000010 = some (.drRd 2) ∧
  decodeTableWord 16 0b0100010000000001 = some (.tx true) ∧
  decodeTableWord 32 0x00AA1234 = some (.fwdTick 0x34 0x12 0xAA) ∧
  decodeTableWord 32 0x80DEBC9A = some (.fwdEdge 0x9A 0xBC 0xDE 0x80) ∧
  decodeTableWord 16 0x2100 = none ∧ decodeTableWord 16 0x4104 = none ∧ decodeTableWord 16 0xFFFF = none

/-- Decoding the word of a well-formed operation gives the operation back, with every operand at every
value: no bit of an encoding is dropped. -/
def Obligations.DecodeOfEncode : Prop :=
  ∀ i : Instr, i.wellFormed = true → decode (encode i).bytes = .ok i

/-- 30_encoding.md R111: the step words that decode are exactly the words of the well-formed steps, and each
decodes to the one it is the word of; a script that holds any other 16-bit value is refused there. -/
def Obligations.OnlyTableWordsDecode : Prop :=
  (∀ (w : Half) (i : Instr), decodeStep w = .ok i ↔ i.isStep ∧ i.wellFormed = true ∧ encode i = .step w) ∧
  ∀ (s : State) (w : Half) (rest : List Half), s.script = w :: rest →
    (∀ i : Instr, i.isStep → i.wellFormed = true → encode i ≠ .step w) → step s = .refused (.reservedWord w)

/-- 30_encoding.md R112: a record is `FWD.TICK` when its kind byte is zero and `FWD.EDGE` otherwise, with its
other bytes as operands; DR.FWD performs the operation its popped record decodes to. -/
def Obligations.RecordDispatch : Prop :=
  (∀ w : BitVec 32,
    (w.extractLsb' 24 8 = 0 →
      decodeRecord w = .fwdTick (w.extractLsb' 0 8) (w.extractLsb' 8 8) (w.extractLsb' 16 8)) ∧
    (w.extractLsb' 24 8 ≠ 0 →
      decodeRecord w =
        .fwdEdge (w.extractLsb' 0 8) (w.extractLsb' 8 8) (w.extractLsb' 16 8) (w.extractLsb' 24 8))) ∧
  ∀ s : State, s.mainReady mFwd → s.mNe = true →
    exec .drFwd s = mapNext (State.setMph mFmt) (exec (decodeRecord s.mRec.rec32) s.advanceInTail)

/-- 30_encoding.md R101: the record and its 32-bit form determine each other, byte `k` being
`rec32[8k+7 : 8k]`. -/
def Obligations.RecordBytes : Prop :=
  (∀ r : Record, Record.ofRec32 r.rec32 = r) ∧ (∀ w : BitVec 32, (Record.ofRec32 w).rec32 = w) ∧
    ∀ (r : Record) (k : BitVec 2), r.byte k = r.rec32.extractLsb' (8 * k.toNat) 8

/-- 30_encoding.md R108: the hexadecimal digits, and (derived there) no byte of a rendered text is the
terminating marker. -/
def Obligations.HexDigitCharacters : Prop :=
  (∀ n : BitVec 4, (n.toNat ≤ 9 → (hexDigit n).toNat = 0x30 + n.toNat) ∧
    (10 ≤ n.toNat → (hexDigit n).toNat = 0x37 + n.toNat)) ∧
  ∀ (r : Record) (n cnt : Byte) (j : Fin 9), j.val < 8 → (tokenText r (lineStep n cnt).1)[j] ≠ termByte

/-- 30_encoding.md R114: the expansions, with their lengths, and `TMR.ADV m` lets exactly `m` ticks pass
(44_startup_and_environment.md R198). -/
def Obligations.PseudoOperations : Prop :=
  Pseudo.capEdge.expand = [.enterE, .rdport, .rdtlo, .rdthi, .commit] ∧
  Pseudo.capTick.expand = [.enterT, .rdport, .rdtlo, .rdthi, .commit] ∧
  (∀ v, (Pseudo.edge v).expand = .pin v :: Pseudo.capEdge.expand) ∧
  Pseudo.drain.expand = [.drChk, .drRd 0, .drRd 1, .drRd 2, .drRd 3, .drFwd] ∧
  (∀ r, (Pseudo.iter r).expand = Pseudo.drain.expand ++ [.format, .tx r, .service]) ∧
  (∀ r, (Pseudo.run 0 r).expand = []) ∧
  (∀ c r, (Pseudo.run (c + 1) r).expand = (Pseudo.iter r).expand ++ (Pseudo.run c r).expand) ∧
  (∀ c r, (Pseudo.run c r).expand.length = 9 * c) ∧
  ∀ (m : Nat) (s : State), s.ie = true → 1 ≤ m → m ≤ 65535 →
    (Pseudo.tmrAdv m).expand =
      List.replicate (m / 255) (.tmr 255) ++ (if m % 255 = 0 then [] else [.tmr (BitVec.ofNat 8 (m % 255))]) ∧
    (Pseudo.tmrAdv m).expand.length ≤ 258 ∧
    ∃ t, runScript (Pseudo.tmrAdv m).expand s = .next t ∧ t.tcnt = s.tcnt + BitVec.ofNat 16 m ∧
      t.tovf = (s.tovf || decide (65536 ≤ s.tcnt.toNat + m)) ∧
      t = { s with tcnt := t.tcnt, tovf := t.tovf }

/-! ### Steps -/

/-- The model's choice (log entry 1): the script is a field of State, and a step takes its first word. It performs
the operation that word decodes to, on the state with the word taken off; a reserved word is refused
(30_encoding.md R111, R113). -/
def Obligations.StepRunsDecodedWord : Prop :=
  ∀ (s : State) (w : Half) (rest : List Half), s.script = w :: rest →
    (∀ i, decodeStep w = .ok i → step s = exec i { s with script := rest }) ∧
    (∀ e, decodeStep w = .error e → step s = .refused (.reservedWord w))

/-- The model's choice (log entries 1 and 12): with no script, a step performs some operation that is enabled, and
counts the draw and the wait. -/
def Obligations.StepWithoutScriptIsEnabled : Prop :=
  ∀ s : State, s.script = [] →
    ∃ i u, i.isStep ∧ i.wellFormed = true ∧ enabled i s = true ∧
      u = { s with draws := s.draws + 1, waited := u.waited } ∧ step s = exec i u

/-- The model's choice (log entry 10): a step word placed for the next step is at the head of the script,
with its operation enabled, so that the step performs it. -/
def Obligations.PlacedWordRuns : Prop :=
  ∀ (s : State) (i : Instr) (w : Half), i.isStep → i.wellFormed = true → encode i = .step w →
    enabled i (s.withFetchWord 16 w.toNat) = true ∧
    step (s.withFetchWord 16 w.toNat) = exec i { s.withFetchWord 16 w.toNat with script := s.script }

/-- 30_encoding.md R110: the word and the enabling condition of every step. -/
def Obligations.OpcodeMapAndEnabling : Prop :=
  decodeStep 0x1000 = .ok .init ∧ (∀ v : Byte, decodeStep (0x20#8 ++ v) = .ok (.pin v)) ∧
  (∀ n : Byte, n ≠ 0 → decodeStep (0x21#8 ++ n) = .ok (.tmr n)) ∧ decodeStep 0x3000 = .ok .enterE ∧
  decodeStep 0x3100 = .ok .enterT ∧ decodeStep 0x3200 = .ok .rdport ∧ decodeStep 0x3300 = .ok .rdtlo ∧
  decodeStep 0x3400 = .ok .rdthi ∧ decodeStep 0x3500 = .ok .commit ∧ decodeStep 0x4000 = .ok .drChk ∧
  (∀ k : BitVec 2, decodeStep (0x4100 + k.zeroExtend 16) = .ok (.drRd k)) ∧ decodeStep 0x4200 = .ok .drFwd ∧
  decodeStep 0x4300 = .ok .format ∧ decodeStep 0x4400 = .ok (.tx false) ∧ decodeStep 0x4401 = .ok (.tx true) ∧
  decodeStep 0x4500 = .ok .service ∧
  ∀ s : State,
    enabled .init s = true ∧ (∀ v, enabled (.pin v) s = true ↔ s.ie = true) ∧
    (∀ n, enabled (.tmr n) s = true ↔ s.ie = true ∧ n ≠ 0) ∧
    (enabled .enterE s = true ↔ s.ie = true ∧ s.hph = hIdle ∧ s.eif ≠ 0 ∧
      (s.cfg.irqPrio = .tickFirst → s.tovf = false)) ∧
    (enabled .enterT s = true ↔ s.ie = true ∧ s.hph = hIdle ∧ s.tovf = true ∧
      (s.cfg.irqPrio = .edgeFirst → s.eif = 0)) ∧
    (enabled .rdport s = true ↔ s.handlerReady hPort) ∧ (enabled .rdtlo s = true ↔ s.handlerReady hTlo) ∧
    (enabled .rdthi s = true ↔ s.handlerReady hThi) ∧ (enabled .commit s = true ↔ s.handlerReady hCommit) ∧
    (enabled .drChk s = true ↔ s.mainReady mChk) ∧
    (∀ k, enabled (.drRd k) s = true ↔ s.ie = true ∧ s.hph = hIdle ∧ s.mph.toNat = 1 + k.toNat) ∧
    (enabled .drFwd s = true ↔ s.mainReady mFwd) ∧ (enabled .format s = true ↔ s.mainReady mFmt) ∧
    (∀ r, enabled (.tx r) s = true ↔ s.mainReady mTx) ∧ (enabled .service s = true ↔ s.mainReady mSvc)

/-- Under the invariant of R44 a step of the table runs exactly where it is enabled, and is refused, never
a fault, everywhere else (00_scope.md R13, 60_exceptions.md R210). -/
def Obligations.RunsExactlyWhenEnabled : Prop :=
  ∀ (s : State) (i : Instr), s.Inv → i.isStep →
    ((∃ t, exec i s = .next t) ↔ enabled i s = true) ∧
    (enabled i s = false → exec i s = .refused (if s.ie then .notEnabled else .notStarted))

/-- 70_reset_and_hazards.md R240: before the first INIT no operation other than INIT is enabled, and INIT is. -/
def Obligations.OnlyInitBeforeStart : Prop :=
  ∀ s : State, s.ie = false → (∃ t, exec .init s = .next t) ∧
    ∀ i : Instr, i.isStep → i ≠ .init → enabled i s = false ∧ exec i s = .refused .notStarted

/-! ### Startup and environment -/

/-- 44_startup_and_environment.md R196: INIT, from any state. -/
def Obligations.InitResets : Prop :=
  ∀ s : State, ∃ t, exec .init s = .next t ∧ t.eif = 0 ∧ t.tovf = false ∧ t.inHead = 0 ∧ t.inTail = 0 ∧
    t.hph = hIdle ∧ t.outHead = 0 ∧ t.outTail = 0 ∧ t.mph = mChk ∧ t.mNe = false ∧
    t.quota = s.cfg.tickQuotaMax ∧ t.lineCnt = 0 ∧ t.txbuf[0] = termByte ∧ t.cur = 0 ∧ t.txLog = [] ∧
    t.svcCnt = 0 ∧ t.evLog = [] ∧ t.ie = true ∧ t.pin = s.pin ∧ t.cfg = s.cfg

/-- 10_state.md R43: the reset state has the values of the table. The items R43 leaves unspecified, and the
configuration, are the model's choice (log entries 2 and 4) and are not stated. -/
def Obligations.ResetStateIsTheTable : Prop :=
  let s := State.reset
  s.eif = 0 ∧ s.tovf = false ∧ s.ie = true ∧ s.inHead = 0 ∧ s.inTail = 0 ∧ s.hph = hIdle ∧ s.mph = mChk ∧
    s.mNe = false ∧ s.quota = s.cfg.tickQuotaMax ∧ s.outHead = 0 ∧ s.outTail = 0 ∧ s.lineCnt = 0 ∧
    s.txbuf[0] = termByte ∧ s.cur = 0 ∧ s.txLog = [] ∧ s.svcCnt = 0 ∧ s.evLog = []

/-- 44_startup_and_environment.md R197: PIN sets the flag of every monitored pin that changes (in
CHANGE_OCTA flag 0 for any), clears none, and changes nothing else but the pins. -/
def Obligations.PinSetsEdgeFlags : Prop :=
  (∀ v, refusedUnless (.pin v) (fun s => s.ie = true)) ∧
  ∀ (s : State) (v : Byte), s.cfg.wf → s.ie = true →
    ∃ t, exec (.pin v) s = .next t ∧ t = { s with pin := v, eif := t.eif } ∧
      (s.cfg.topology = .edgeQuad → ∀ i < 4, t.eif.getLsbD i =
        (s.eif.getLsbD i ||
          match (monitoredPins s.cfg.monMask)[i]? with
          | some p => (s.pin ^^^ v).getLsbD p
          | none => false)) ∧
      (s.cfg.topology = .changeOcta →
        t.eif = if (s.pin ^^^ v) &&& s.cfg.monMask = 0 then s.eif else s.eif ||| 1)

/-- 44_startup_and_environment.md R198: `n` ticks advance the count by `n` modulo 65536, and set TOVF exactly
when the count wraps to 0 on the way; nothing else changes. -/
def Obligations.TimerTicks : Prop :=
  (∀ n, refusedUnless (.tmr n) (fun s => s.ie = true ∧ n ≠ 0)) ∧
  ∀ (s : State) (n : Byte), s.ie = true → n ≠ 0 →
    exec (.tmr n) s = .next { s with
      tcnt := s.tcnt + n.zeroExtend 16
      tovf := s.tovf || decide (65536 ≤ s.tcnt.toNat + n.toNat) }

/-! ### Capture handlers -/

/-- 40_capture_handlers.md R131: ENTER.E. -/
def Obligations.EnterEdgeHandler : Prop :=
  let en := fun s : State => s.ie = true ∧ s.hph = hIdle ∧ s.eif ≠ 0 ∧
    (s.cfg.irqPrio = .tickFirst → s.tovf = false)
  refusedUnless .enterE en ∧
  ∀ s, en s → exec .enterE s = .next { s with eif := 0, hkind := true, hph := hPort }

/-- 40_capture_handlers.md R132: ENTER.T. -/
def Obligations.EnterTimerHandler : Prop :=
  let en := fun s : State => s.ie = true ∧ s.hph = hIdle ∧ s.tovf = true ∧
    (s.cfg.irqPrio = .edgeFirst → s.eif = 0)
  refusedUnless .enterT en ∧
  ∀ s, en s → exec .enterT s = .next { s with tovf := false, hkind := false, hph := hPort }

/-- 40_capture_handlers.md R133, R134, R135: the reads of the port and of the two timer bytes. -/
def Obligations.HandlerReads : Prop :=
  refusedUnless .rdport (State.handlerReady hPort) ∧ refusedUnless .rdtlo (State.handlerReady hTlo) ∧
  refusedUnless .rdthi (State.handlerReady hThi) ∧
  (∀ s, s.handlerReady hPort → exec .rdport s = .next { s with rPort := s.pin, hph := hTlo }) ∧
  (∀ s, s.handlerReady hTlo → exec .rdtlo s = .next { s with rTlo := s.tcnt.extractLsb' 0 8, hph := hThi }) ∧
  (∀ s, s.handlerReady hThi →
    exec .rdthi s = .next { s with rThi := s.tcnt.extractLsb' 8 8, hph := hCommit })

/-- 40_capture_handlers.md R136: COMMIT writes the record into slot IN_HEAD, full or not, advances IN_HEAD and
returns; the label is emitted exactly when the ring was full; nothing else changes. -/
def Obligations.CommitPushesRecord : Prop :=
  refusedUnless .commit (State.handlerReady hCommit) ∧
  ∀ s : State, s.handlerReady hCommit → s.cfg.wf → s.inHead.toNat < s.cfg.inSlots →
    let a := s.cfg.inBase + 4 * s.inHead.toNat
    ∃ t, exec .commit s = .next t ∧ t.inHead.toNat = (s.inHead.toNat + 1) % s.cfg.inSlots ∧
      t.readByte a = s.rTlo ∧ t.readByte (a + 1) = s.rThi ∧ t.readByte (a + 2) = s.rPort ∧
      t.readByte (a + 3) = (if s.hkind then 0x01 else 0x00) ∧
      (∀ x, x < a ∨ a + 4 ≤ x → t.readByte x = s.readByte x) ∧
      t.evLog = s.evLog ++
        (if (s.inHead.toNat + 1) % s.cfg.inSlots = s.inTail.toNat then [Label.inOverrun] else []) ∧
      t = { s with mem := t.mem, inHead := t.inHead, hph := hIdle, evLog := t.evLog }

/-- 40_capture_handlers.md R137 (derived there): a whole handler invocation with no step of another agent
inside. -/
def Obligations.WholeHandlerInvocation : Prop :=
  ∀ s : State, s.Inv → s.ie = true → s.hph = hIdle →
    let a := s.cfg.inBase + 4 * s.inHead.toNat
    let stored := fun (t : State) (kind : Byte) =>
      t.readRecord a = ⟨s.tcnt.extractLsb' 0 8, s.tcnt.extractLsb' 8 8, s.pin, kind⟩ ∧
      (∀ x, x < a ∨ a + 4 ≤ x → t.readByte x = s.readByte x) ∧
      t.inHead.toNat = (s.inHead.toNat + 1) % s.cfg.inSlots
    (enabled .enterE s = true → ∃ t, runScript Pseudo.capEdge.expand s = .next t ∧ stored t 0x01 ∧
      t = { s with
        eif := 0, mem := t.mem, inHead := t.inHead, rPort := s.pin, rTlo := s.tcnt.extractLsb' 0 8
        rThi := s.tcnt.extractLsb' 8 8, hkind := true, evLog := t.evLog }) ∧
    (enabled .enterT s = true → ∃ t, runScript Pseudo.capTick.expand s = .next t ∧ stored t 0x00 ∧
      t = { s with
        tovf := false, mem := t.mem, inHead := t.inHead, rPort := s.pin, rTlo := s.tcnt.extractLsb' 0 8
        rThi := s.tcnt.extractLsb' 8 8, hkind := false, evLog := t.evLog })

/-- 40_capture_handlers.md R139 (derived there): `d` ticks between the two timer reads leave the timestamp
exact unless a carry out of bit 7 falls among them, and then it is 256 ahead. -/
def Obligations.TimestampSkew : Prop :=
  ∀ (s : State) (d : Byte), s.handlerReady hTlo → d ≠ 0 →
    ∃ t, runScript [.rdtlo, .tmr d, .rdthi] s = .next t ∧
      t.rThi ++ t.rTlo = if s.tcnt.toNat % 256 + d.toNat < 256 then s.tcnt else s.tcnt + 256

/-- 40_capture_handlers.md R138 (derived there): pin changes before the entry give one record with the last
level; a change between the entry and the port read is in that snapshot and pends again. -/
def Obligations.PinChangesCoalesce : Prop :=
  (∀ (s : State) (v w : Byte), s.ie = true → s.hph = hIdle → (s.cfg.irqPrio = .tickFirst → s.tovf = false) →
    ((s.movePins v).movePins w).eif ≠ 0 →
    ∃ t, runScript [.pin v, .pin w, .enterE, .rdport] s = .next t ∧ t.eif = 0 ∧ t.rPort = w) ∧
  (∀ (s : State) (v w : Byte), s.ie = true → s.hph = hIdle → (s.cfg.irqPrio = .tickFirst → s.tovf = false) →
    (s.movePins v).eif ≠ 0 →
    ∃ t, runScript [.pin v, .enterE, .pin w, .rdport] s = .next t ∧ t.rPort = w ∧
      t.eif = edgeFlags s.cfg (changedPins s.cfg v w))

/-- 10_state.md R30, 60_exceptions.md R219: while a handler runs, no MAIN operation and no ENTER runs. -/
def Obligations.HandlerExcludesMainAndEntry : Prop :=
  ∀ (s : State) (i : Instr), s.hph ≠ hIdle → i.agent = .main ∨ i = .enterE ∨ i = .enterT →
    exec i s = .refused (if s.ie then .notEnabled else .notStarted)

/-- 40_capture_handlers.md R140: a handler is five steps. Each capture operation moves HPH to the next of its
five phases, cyclically, and no MAIN or ENV operation moves it. -/
def Obligations.HandlerIsFiveSteps : Prop :=
  ∀ (s t : State) (i : Instr), exec i s = .next t →
    (i.agent = .isr → t.hph.toNat = (s.hph.toNat + 1) % 5 ∧ s.hph.toNat ≤ 4) ∧
    (i.agent ≠ .isr → i ≠ .init → t.hph = s.hph)

/-! ### Drain step and throttle -/

/-- 41_drain_rate_limiter.md R151: DR.CHK. -/
def Obligations.DrainCheck : Prop :=
  refusedUnless .drChk (State.mainReady mChk) ∧
  ∀ s : State, s.mainReady mChk →
    exec .drChk s = .next { s with mNe := decide (s.inHead ≠ s.inTail), mph := mRd0 }

/-- 41_drain_rate_limiter.md R152: DR.RD k. -/
def Obligations.DrainReadByte : Prop :=
  (∀ k : BitVec 2, refusedUnless (.drRd k) (fun s => s.ie = true ∧ s.hph = hIdle ∧ s.mph.toNat = 1 + k.toNat)) ∧
  ∀ (s : State) (k : BitVec 2), s.ie = true → s.hph = hIdle → s.mph.toNat = 1 + k.toNat →
    s.inTail.toNat < s.cfg.inSlots →
    let b := s.readByte (s.cfg.inBase + 4 * s.inTail.toNat + k.toNat)
    ∃ t, exec (.drRd k) s = .next t ∧ t.mph.toNat = s.mph.toNat + 1 ∧
      t = { s with mRec := t.mRec, mph := t.mph } ∧
      (s.mNe = false → t.mRec = s.mRec) ∧
      (s.mNe = true → t.mRec.byte k = b ∧ ∀ j, j ≠ k → t.mRec.byte j = s.mRec.byte j)

/-- 41_drain_rate_limiter.md R153: DR.FWD ends the pop and gives the record to the policy of its class. -/
def Obligations.DrainForward : Prop :=
  refusedUnless .drFwd (State.mainReady mFwd) ∧
  ∀ s : State, s.mainReady mFwd →
    (s.mNe = false → exec .drFwd s = .next { s with mph := mFmt }) ∧
    (s.mNe = true → s.cfg.wf → s.outHead.toNat < s.cfg.outSlots →
      ∃ a u, a.inTail.toNat = (s.inTail.toNat + 1) % s.cfg.inSlots ∧ a = { s with inTail := a.inTail } ∧
        exec (if s.mRec.kind = 0x00 then .fwdTick s.mRec.tsLo s.mRec.tsHi s.mRec.port
          else .fwdEdge s.mRec.tsLo s.mRec.tsHi s.mRec.port s.mRec.kind) a = .next u ∧
        exec .drFwd s = .next { u with mph := mFmt })

/-- 41_drain_rate_limiter.md R154: FWD.EDGE. -/
def Obligations.EdgeRecordPolicy : Prop :=
  ∀ (s : State) (l h p k : Byte), s.cfg.wf → s.outHead.toNat < s.cfg.outSlots →
    let a := s.cfg.outBase + 4 * s.outHead.toNat
    ((s.outHead.toNat + 1) % s.cfg.outSlots = s.outTail.toNat →
      exec (.fwdEdge l h p k) s =
        .next { s with evLog := s.evLog ++ [.outDropEdge], quota := s.cfg.tickQuotaMax }) ∧
    ((s.outHead.toNat + 1) % s.cfg.outSlots ≠ s.outTail.toNat →
      ∃ t, exec (.fwdEdge l h p k) s = .next t ∧
        t.outHead.toNat = (s.outHead.toNat + 1) % s.cfg.outSlots ∧ t.readRecord a = ⟨l, h, p, k⟩ ∧
        (∀ x, x < a ∨ a + 4 ≤ x → t.readByte x = s.readByte x) ∧
        t = { s with mem := t.mem, outHead := t.outHead, quota := s.cfg.tickQuotaMax })

/-- 41_drain_rate_limiter.md R155: FWD.TICK. -/
def Obligations.TickRecordPolicy : Prop :=
  ∀ (s : State) (l h p : Byte), s.cfg.wf → s.outHead.toNat < s.cfg.outSlots →
    let a := s.cfg.outBase + 4 * s.outHead.toNat
    (s.quota = 0 → exec (.fwdTick l h p) s = .next { s with evLog := s.evLog ++ [.tickThrottled] }) ∧
    (s.quota ≠ 0 → (s.outHead.toNat + 1) % s.cfg.outSlots = s.outTail.toNat →
      exec (.fwdTick l h p) s =
        .next { s with evLog := s.evLog ++ [.outDropTick], quota := s.quota - 1 }) ∧
    (s.quota ≠ 0 → (s.outHead.toNat + 1) % s.cfg.outSlots ≠ s.outTail.toNat →
      ∃ t, exec (.fwdTick l h p) s = .next t ∧
        t.outHead.toNat = (s.outHead.toNat + 1) % s.cfg.outSlots ∧ t.readRecord a = ⟨l, h, p, 0x00⟩ ∧
        (∀ x, x < a ∨ a + 4 ≤ x → t.readByte x = s.readByte x) ∧
        t = { s with mem := t.mem, outHead := t.outHead, quota := s.quota - 1 })

/-- 41_drain_rate_limiter.md R156 (derived there): from quota `q`, of `n` consecutive ticks the first `q` are
forwarded and the others dropped by policy, when the output ring has room; an edge restores the quota. -/
def Obligations.ThrottleForwardsQuotaTicks : Prop :=
  ∀ (s : State) (ticks : List Record), s.Inv → (∀ r ∈ ticks, r.kind = 0x00) →
    s.outQueue.length + ticks.length < s.cfg.outSlots →
    ∃ t, applyPolicies ticks s = .next t ∧ t.quota.toNat = s.quota.toNat - ticks.length ∧
      t.outQueue = s.outQueue ++ ticks.take s.quota.toNat ∧
      t.evLog = s.evLog ++ List.replicate (ticks.length - s.quota.toNat) Label.tickThrottled ∧
      ∀ r : Record, r.kind ≠ 0x00 → ∃ u, exec r.policy t = .next u ∧ u.quota = s.cfg.tickQuotaMax

/-- 41_drain_rate_limiter.md R157 (derived there): the drain step with no handler inside it. -/
def Obligations.WholeDrainStep : Prop :=
  ∀ s : State, s.Inv → s.mainReady mChk →
    (s.inHead = s.inTail → runScript drainSteps s = .next { s with mNe := false, mph := mFmt }) ∧
    (s.inHead ≠ s.inTail →
      ∃ r a u, r = s.readRecord (s.cfg.inBase + 4 * s.inTail.toNat) ∧
        a.inTail.toNat = (s.inTail.toNat + 1) % s.cfg.inSlots ∧
        a = { s with mNe := true, mRec := r, mph := mFwd, inTail := a.inTail } ∧
        exec r.policy a = .next u ∧ runScript drainSteps s = .next { u with mph := mFmt })

/-! ### Formatter, transmitter, service -/

/-- 42_formatter.md R171, R172: FORMAT. -/
def Obligations.FormatRenders : Prop :=
  refusedUnless .format (State.mainReady mFmt) ∧
  ∀ (s : State) (b : Byte), s.mainReady mFmt → s.txbuf[s.cur.toNat]? = some b →
    (b ≠ termByte ∨ s.outHead = s.outTail → exec .format s = .next { s with mph := mTx }) ∧
    (b = termByte → s.outHead ≠ s.outTail → s.cfg.wf → s.outTail.toNat < s.cfg.outSlots →
      let a := s.cfg.outBase + 4 * s.outTail.toNat
      let lo := s.readByte a
      let hi := s.readByte (a + 1)
      let port := s.readByte (a + 2)
      let flag : Byte := if s.readByte (a + 3) = 0x00 then 0x31 else 0x30
      let ends := s.lineCnt.toNat + 1 = s.cfg.tokensPerLine.toNat
      ∃ t, exec .format s = .next t ∧ t.outTail.toNat = (s.outTail.toNat + 1) % s.cfg.outSlots ∧
        t = { s with
          outTail := t.outTail
          txbuf := #v[hexDigit (hi.extractLsb' 4 4), hexDigit (hi.extractLsb' 0 4),
            hexDigit (lo.extractLsb' 4 4), hexDigit (lo.extractLsb' 0 4),
            hexDigit (port.extractLsb' 4 4), hexDigit (port.extractLsb' 0 4),
            flag, if ends then 0x0A else 0x20, 0x00]
          lineCnt := if ends then 0 else s.lineCnt + 1
          cur := 0
          mph := mTx })

/-- 42_formatter.md R173 (derived there): counting from 1 the records rendered since the line counter was
0, the `j`-th gets the line break exactly when `j mod N = 0`. -/
def Obligations.LineBreakEveryNth : Prop :=
  ∀ (n : Byte) (j : Nat), 1 ≤ n.toNat →
    let cnt := (fun c => (lineStep n c).2)^[j] 0
    cnt.toNat = j % n.toNat ∧
      (lineStep n cnt).1 = if (j + 1) % n.toNat = 0 then 0x0A else 0x20

/-- 43_transmitter.md R186: TX. -/
def Obligations.TransmitAtMostOneByte : Prop :=
  (∀ r, refusedUnless (.tx r) (State.mainReady mTx)) ∧
  ∀ (s : State) (b : Byte), s.mainReady mTx → s.txbuf[s.cur.toNat]? = some b →
    (b = termByte → ∀ r, exec (.tx r) s = .next { s with mph := mSvc }) ∧
    (b ≠ termByte →
      exec (.tx true) s = .next { s with txLog := s.txLog ++ [b], cur := s.cur + 1, mph := mSvc } ∧
      exec (.tx false) s = .next { s with evLog := s.evLog ++ [.txStall], mph := mSvc })

/-- 43_transmitter.md R188: SERVICE. -/
def Obligations.ServiceStrobe : Prop :=
  refusedUnless .service (State.mainReady mSvc) ∧
  ∀ s : State, s.mainReady mSvc → exec .service s = .next { s with svcCnt := s.svcCnt + 1, mph := mChk }

/-- 42_formatter.md R174, 43_transmitter.md R187 (derived there): a rendered text is sent in buffer order by
the next eight iterations with a ready transport, whatever the output ring holds, the input ring empty. -/
def Obligations.TextSentInEightIterations : Prop :=
  ∀ (s : State) (r : Record) (sep : Byte), s.Inv → s.mainReady mChk → s.inHead = s.inTail →
    s.txbuf = tokenText r sep → sep ≠ termByte → s.cur = 0 →
    ∃ t, runScript (Pseudo.run 8 true).expand s = .next t ∧
      t = { s with txLog := s.txLog ++ s.txbuf.toList.take 8, svcCnt := s.svcCnt + 8, cur := 8, mNe := false }

/-! ### Rings -/

/-- 20_memory.md R71, R73: the checked push and the pop of the output ring; after a push that fails, a pop and
then a push succeed. -/
def Obligations.OutputRingPrimitives : Prop :=
  ∀ (s : State) (r : Record), s.Inv →
    (s.pushOut r = none ↔ (s.outHead.toNat + 1) % s.cfg.outSlots = s.outTail.toNat) ∧
    (∀ t, s.pushOut r = some t →
      t.readRecord (s.cfg.outBase + 4 * s.outHead.toNat) = r ∧
      (∀ x, x < s.cfg.outBase + 4 * s.outHead.toNat ∨ s.cfg.outBase + 4 * s.outHead.toNat + 4 ≤ x →
        t.readByte x = s.readByte x) ∧
      t.outHead.toNat = (s.outHead.toNat + 1) % s.cfg.outSlots ∧
      t = { s with mem := t.mem, outHead := t.outHead }) ∧
    (s.pushOut r = none → ∃ q u v, s.popOut = some (q, u) ∧ u.pushOut r = some v) ∧
    (s.popOut = none ↔ s.outHead = s.outTail) ∧
    (∀ q t, s.popOut = some (q, t) →
      q = s.readRecord (s.cfg.outBase + 4 * s.outTail.toNat) ∧
      t.outTail.toNat = (s.outTail.toNat + 1) % s.cfg.outSlots ∧ t = { s with outTail := t.outTail })

/-- 20_memory.md R72: the unchecked push of the input ring does not look at IN_TAIL; done on a full ring it
is an overrun and leaves `head = tail`. -/
def Obligations.InputPushUnconditional : Prop :=
  ∀ (s : State) (r : Record), s.cfg.wf →
    (s.pushIn r).readRecord (s.cfg.inBase + 4 * s.inHead.toNat) = r ∧
    (s.pushIn r).inHead.toNat = (s.inHead.toNat + 1) % s.cfg.inSlots ∧
    s.pushIn r = { s with mem := (s.pushIn r).mem, inHead := (s.pushIn r).inHead } ∧
    (∀ x : BitVec 8, ({ s with inTail := x } : State).pushIn r = { s.pushIn r with inTail := x }) ∧
    (s.inFull = true → (s.pushIn r).inHead = (s.pushIn r).inTail)

/-- 20_memory.md R74 (derived there): the output ring is a first-in first-out queue of capacity
OUT_SLOTS - 1. A forwarded record is appended, or dropped when the ring is full; FORMAT takes the oldest;
COMMIT leaves the queue alone. -/
def Obligations.OutputRingIsFifo : Prop :=
  ∀ s : State, s.Inv →
    (s.outFull = true ↔ s.outQueue.length + 1 = s.cfg.outSlots) ∧ s.outQueue.length < s.cfg.outSlots ∧
    (∀ r : Record, r.kind ≠ 0x00 → ∃ t, exec r.policy s = .next t ∧
      t.outQueue = if s.outFull then s.outQueue else s.outQueue ++ [r]) ∧
    (s.mainReady mFmt → s.curByte = some termByte → s.outHead ≠ s.outTail →
      ∃ t r, exec .format s = .next t ∧ s.outQueue = r :: t.outQueue ∧
        t.txbuf = tokenText r (lineStep s.cfg.tokensPerLine s.lineCnt).1) ∧
    (∀ t, exec .commit s = .next t → t.outQueue = s.outQueue)

/-- 20_memory.md R74, R75 (derived there): COMMIT appends its record to the input queue while the ring is not
full, and an overrun leaves the ring reading as empty; DR.FWD takes the oldest record, if there is one. -/
def Obligations.InputRingIsFifoUntilOverrun : Prop :=
  ∀ s : State, s.Inv →
    (s.handlerReady hCommit → ∃ t, exec .commit s = .next t ∧
      (s.inFull = false → t.inQueue = s.inQueue ++ [⟨s.rTlo, s.rThi, s.rPort, if s.hkind then 0x01 else 0x00⟩]) ∧
      (s.inFull = true → t.inHead = t.inTail ∧ t.inQueue = [] ∧ s.inQueue.length + 1 = s.cfg.inSlots)) ∧
    (s.mainReady mFwd → s.mNe = true → s.inHead ≠ s.inTail →
      ∃ t, exec .drFwd s = .next t ∧ t.inQueue = s.inQueue.tail)

/-! ### The whole machine -/

/-- INIT establishes the invariant of 10_state.md R44 from any state with a legal configuration, and the
reset state has it. -/
def Obligations.InitEstablishesInvariant : Prop :=
  State.reset.Inv ∧ State.reset.ringsWritten ∧
  ∀ s t : State, s.cfg.wf → exec .init s = .next t → t.Inv ∧ t.ringsWritten

/-- 10_state.md R44 (derived there): every step keeps the invariant, from every state that has it. -/
def Obligations.StepKeepsInvariant : Prop :=
  ∀ s t : State, s.Inv → step s = .next t → t.Inv

/-- 60_exceptions.md R210: from a state with the invariant, no sequence of steps comes to a fault, and a step
is refused only for a reserved word or an operation that is not enabled. -/
def Obligations.NoStepFaults : Prop :=
  ∀ s t : State, s.Inv → Reaches s t →
    (∀ f, step t ≠ .fault f) ∧
    ∀ r, step t = .refused r → ∃ w rest, t.script = w :: rest ∧
      ((∃ e, decodeStep w = .error e) ∨ ∃ i, decodeStep w = .ok i ∧ enabled i t = false)

/-- 70_reset_and_hazards.md R243 (derived there): every step keeps "each slot a pop may read has been
written", so DR.RD and FORMAT never read an unspecified byte, even across overruns. -/
def Obligations.RingReadsAreWritten : Prop :=
  (∀ s t : State, s.Inv → s.ringsWritten → step s = .next t → t.ringsWritten) ∧
  ∀ s : State, s.Inv → s.ringsWritten →
    (∀ k, enabled (.drRd k) s = true → s.mNe = true →
      (s.mem.byteAt (inSlotAddr s.cfg s.inTail.toNat + k.toNat)).isSome = true) ∧
    (s.outHead ≠ s.outTail → s.mem.slotWritten (outSlotAddr s.cfg s.outTail.toNat) = true)

/-- 10_state.md R42: no MAIN operation writes an item of the capture unit, the flags or the input ring's
storage, no capture operation writes an item of MAIN or the output ring's storage, and the environment
writes neither; of the flag registers the capture unit only clears one, and the environment only sets bits. -/
def Obligations.WriterExclusivity : Prop :=
  ∀ (s t : State) (i : Instr), s.Inv → exec i s = .next t → i ≠ .init →
    (i.agent ≠ .isr → t.inHead = s.inHead ∧ t.rPort = s.rPort ∧ t.rTlo = s.rTlo ∧ t.rThi = s.rThi ∧
      t.hph = s.hph ∧ t.hkind = s.hkind ∧
      ∀ n < 4 * s.cfg.inSlots, t.readByte (s.cfg.inBase + n) = s.readByte (s.cfg.inBase + n)) ∧
    (i.agent = .main ∨ i.agent = .mainPolicy → t.eif = s.eif ∧ t.tovf = s.tovf) ∧
    (i.agent = .isr ∨ i.agent = .env → t.mph = s.mph ∧ t.inTail = s.inTail ∧ t.mNe = s.mNe ∧
      t.mRec = s.mRec ∧ t.quota = s.quota ∧ t.outHead = s.outHead ∧ t.outTail = s.outTail ∧
      t.lineCnt = s.lineCnt ∧ t.txbuf = s.txbuf ∧ t.cur = s.cur ∧ t.txLog = s.txLog ∧ t.svcCnt = s.svcCnt ∧
      ∀ n < 4 * s.cfg.outSlots, t.readByte (s.cfg.outBase + n) = s.readByte (s.cfg.outBase + n)) ∧
    (i.agent = .isr → (t.eif = s.eif ∨ t.eif = 0) ∧ (t.tovf = s.tovf ∨ t.tovf = false)) ∧
    (i.agent = .env → s.eif &&& t.eif = s.eif ∧ (s.tovf = true → t.tovf = true)) ∧
    (i.agent ≠ .env → t.pin = s.pin ∧ t.tcnt = s.tcnt) ∧ t.cfg = s.cfg ∧ t.ie = s.ie

/-- 10_state.md R26: interrupts are enabled after INIT and after every step, only INIT can change IE, and with
`IE = 0` no ENTER is enabled. -/
def Obligations.InterruptsStayEnabled : Prop :=
  (∀ s t : State, step s = .next t → t.ie = true) ∧ (∀ s t : State, exec .init s = .next t → t.ie = true) ∧
  (∀ s : State, s.ie = false → enabled .enterE s = false ∧ enabled .enterT s = false) ∧
  ∀ (s t : State) (i : Instr), exec i s = .next t → i ≠ .init → t.ie = s.ie

/-- 10_state.md R40: no hardware operation reads a ghost item, and no enabling condition depends on one. -/
def Obligations.GhostsAreNotRead : Prop :=
  ∀ (s : State) (i : Instr) (log : List Byte) (cnt : Nat) (ev : List Label),
    enabled i (s.withGhosts log cnt ev) = enabled i s ∧
    mapNext (State.withGhosts [] 0 []) (exec i (s.withGhosts log cnt ev)) =
      mapNext (State.withGhosts [] 0 []) (exec i s)

/-- 40_capture_handlers.md R140: what a capture operation does to the hardware does not depend on any item
MAIN owns (10_state.md R20): with MAIN's registers replaced the outcome is the same but for them, and from two
states that differ in MAIN's items only, the output ring's storage among them, it differs in those only. -/
def Obligations.CaptureIgnoresMainState : Prop :=
  ∀ (s m : State) (i : Instr), i.agent = .isr →
    mapNext State.withoutLabels (exec i (s.withMainOf m)) =
      mapNext (fun t => (t.withMainOf m).withoutLabels) (exec i s) ∧
    (s.sameForCapture m → sameOutcome State.sameForCapture (exec i s) (exec i m))

/-- 10_state.md R31, 43_transmitter.md R189: with no handler running MAIN is never stuck: the operation of its
phase runs, whatever the readiness, no other is enabled, and MPH moves on by one modulo 9. -/
def Obligations.MainNeverStuck : Prop :=
  ∀ (s : State) (r : Bool), s.Inv → s.ie = true → s.hph = hIdle →
    ∃ i t, mainOp r s.mph = some i ∧ exec i s = .next t ∧ t.mph.toNat = (s.mph.toNat + 1) % 9 ∧
      ∀ j, j.agent = .main → enabled j s = true → ∃ b, mainOp b s.mph = some j

/-- 20_memory.md R80 (derived there): adjacent steps of MAIN and of the environment may be swapped, in any
state, without any difference. -/
def Obligations.EnvironmentCommutesWithMain : Prop :=
  ∀ (s : State) (m e : Instr), m.agent = .main → e.agent = .env → e.wellFormed = true →
    runScript [m, e] s = runScript [e, m] s

/-- 20_memory.md R80 (derived there): a MAIN step and a whole handler invocation next to it may be swapped
without changing the state reached, labels apart, except DR.CHK, and DR.RD of the slot the COMMIT writes. -/
def Obligations.HandlerCommutesWithMain : Prop :=
  ∀ (s : State) (m entry : Instr), s.Inv → m.agent = .main → enabled m s = true →
    entry = .enterE ∨ entry = .enterT → enabled entry s = true → m ≠ .drChk →
    ((∃ k, m = .drRd k) → s.mNe = true → s.inHead ≠ s.inTail) →
    ∃ t u, runScript (m :: entry :: handlerBody) s = .next t ∧
      runScript (entry :: handlerBody ++ [m]) s = .next u ∧ t.withoutLabels = u.withoutLabels

/-- The model's choice (log entry 6): an access through an index that is no slot, or past the end of TXBUF,
faults. R64 says none occurs. -/
def Obligations.OutOfRangeAccessFaults : Prop :=
  ∀ s : State,
    (s.handlerReady hCommit → s.cfg.inSlots ≤ s.inHead.toNat → exec .commit s = .fault .noSuchSlot) ∧
    (∀ k, enabled (.drRd k) s = true → s.mNe = true → s.cfg.inSlots ≤ s.inTail.toNat →
      exec (.drRd k) s = .fault .noSuchSlot) ∧
    (s.cfg.outSlots ≤ s.outHead.toNat → ∀ a b c d, exec (.fwdEdge a b c d) s = .fault .noSuchSlot ∧
      (s.quota ≠ 0 → exec (.fwdTick a b c) s = .fault .noSuchSlot)) ∧
    (s.mainReady mFmt → s.curByte = some termByte → s.outHead ≠ s.outTail →
      s.cfg.outSlots ≤ s.outTail.toNat → exec .format s = .fault .noSuchSlot) ∧
    (s.mainReady mFmt → 9 ≤ s.cur.toNat → exec .format s = .fault .noSuchTextByte) ∧
    (s.mainReady mTx → 9 ≤ s.cur.toNat → ∀ r, exec (.tx r) s = .fault .noSuchTextByte)

/-- 60_exceptions.md R211: the five labels, their numbers, the operation and the condition each is emitted
under, what the hardware does then; no step emits more than one, and nothing but EVLOG depends on EVLOG. -/
def Obligations.LossLabels : Prop :=
  [Label.inOverrun, .outDropEdge, .outDropTick, .tickThrottled, .txStall].map Label.code = [1, 2, 3, 4, 5] ∧
  (∀ (s : State) (i : Instr) (ev : List Label),
    mapNext State.withoutLabels (exec i { s with evLog := ev }) = mapNext State.withoutLabels (exec i s)) ∧
  ∀ (s t : State) (i : Instr), i.isStep → i ≠ .init → exec i s = .next t →
    let full := (s.outHead.toNat + 1) % s.cfg.outSlots = s.outTail.toNat
    let pops := i = .drFwd ∧ s.mNe = true
    let cond : Label → Prop := fun l =>
      match l with
      | .inOverrun => i = .commit ∧ (s.inHead.toNat + 1) % s.cfg.inSlots = s.inTail.toNat
      | .outDropEdge => pops ∧ s.mRec.kind ≠ 0x00 ∧ full
      | .outDropTick => pops ∧ s.mRec.kind = 0x00 ∧ s.quota ≠ 0 ∧ full
      | .tickThrottled => pops ∧ s.mRec.kind = 0x00 ∧ s.quota = 0
      | .txStall => i = .tx false ∧ s.curByte ≠ some termByte
    (∀ l, t.evLog = s.evLog ++ [l] ↔ cond l) ∧ ((∀ l, ¬ cond l) → t.evLog = s.evLog) ∧
    (cond .inOverrun → t.readRecord (s.cfg.inBase + 4 * s.inHead.toNat) = s.captured ∧ t.inHead = t.inTail) ∧
    (cond .outDropEdge → t.outHead = s.outHead ∧ t.mem = s.mem ∧ t.quota = s.cfg.tickQuotaMax) ∧
    (cond .outDropTick → t.outHead = s.outHead ∧ t.mem = s.mem ∧ t.quota = s.quota - 1) ∧
    (cond .tickThrottled → t.outHead = s.outHead ∧ t.mem = s.mem ∧ t.quota = s.quota) ∧
    (cond .txStall → t.txLog = s.txLog ∧ t.cur = s.cur)

/-- The model's choice (log entries 1, 2, 12): no operation, INIT included, changes the script, the configuration
or the count of the wait, and only INIT draws. -/
def Obligations.OperationsKeepSchedule : Prop :=
  ∀ (s t : State) (i : Instr), exec i s = .next t →
    t.script = s.script ∧ t.cfg = s.cfg ∧ t.waited = s.waited ∧
      (i ≠ .init → t.draws = s.draws ∧ t.memDraw = s.memDraw)

/-! ### Runs of the free schedule -/

/-- 60_exceptions.md R220, 00_scope.md R15: the run of the free schedule never ends, and it is weakly fair to the
capture unit: no ENTER, and no later operation of a handler, stays enabled for ever without being taken. How
long one waits is a free value (log entry 12). -/
def Obligations.FreeRunIsWeaklyFair : Prop :=
  ∀ s : State, s.Inv → s.script = [] → s.RunsForever ∧ ∀ i : Instr, i.agent = .isr → s.WeaklyFair i

/-- 44_startup_and_environment.md R201: in the run of the free schedule a handler whose ENTER is enabled is
eventually entered and, once entered, runs to its COMMIT with no MAIN step in between (log entry 12). -/
def Obligations.FreeRunServesHandlers : Prop :=
  ∀ s : State, s.Inv → s.script = [] → s.HandlersEntered ∧ s.HandlersCompleted
end

