-- ==== Sys2Proof/Laws/State.lean ====
section
/-! SUPPORT. What each named update of the state leaves in each field, true by definition, so that no later
proof unfolds a record update; and what INIT leaves in the items it fixes. -/

namespace Sys2Proof.Machine

variable (s : State)

@[simp] theorem State.emitEv_pin (l : Label) : (s.emitEv l).pin = s.pin := rfl
@[simp] theorem State.emitEv_tcnt (l : Label) : (s.emitEv l).tcnt = s.tcnt := rfl
@[simp] theorem State.emitEv_eif (l : Label) : (s.emitEv l).eif = s.eif := rfl
@[simp] theorem State.emitEv_tovf (l : Label) : (s.emitEv l).tovf = s.tovf := rfl
@[simp] theorem State.emitEv_ie (l : Label) : (s.emitEv l).ie = s.ie := rfl
@[simp] theorem State.emitEv_inHead (l : Label) : (s.emitEv l).inHead = s.inHead := rfl
@[simp] theorem State.emitEv_rPort (l : Label) : (s.emitEv l).rPort = s.rPort := rfl
@[simp] theorem State.emitEv_rTlo (l : Label) : (s.emitEv l).rTlo = s.rTlo := rfl
@[simp] theorem State.emitEv_rThi (l : Label) : (s.emitEv l).rThi = s.rThi := rfl
@[simp] theorem State.emitEv_hph (l : Label) : (s.emitEv l).hph = s.hph := rfl
@[simp] theorem State.emitEv_hkind (l : Label) : (s.emitEv l).hkind = s.hkind := rfl
@[simp] theorem State.emitEv_mph (l : Label) : (s.emitEv l).mph = s.mph := rfl
@[simp] theorem State.emitEv_inTail (l : Label) : (s.emitEv l).inTail = s.inTail := rfl
@[simp] theorem State.emitEv_mNe (l : Label) : (s.emitEv l).mNe = s.mNe := rfl
@[simp] theorem State.emitEv_mRec (l : Label) : (s.emitEv l).mRec = s.mRec := rfl
@[simp] theorem State.emitEv_quota (l : Label) : (s.emitEv l).quota = s.quota := rfl
@[simp] theorem State.emitEv_outHead (l : Label) : (s.emitEv l).outHead = s.outHead := rfl
@[simp] theorem State.emitEv_outTail (l : Label) : (s.emitEv l).outTail = s.outTail := rfl
@[simp] theorem State.emitEv_lineCnt (l : Label) : (s.emitEv l).lineCnt = s.lineCnt := rfl
@[simp] theorem State.emitEv_txbuf (l : Label) : (s.emitEv l).txbuf = s.txbuf := rfl
@[simp] theorem State.emitEv_cur (l : Label) : (s.emitEv l).cur = s.cur := rfl
@[simp] theorem State.emitEv_mem (l : Label) : (s.emitEv l).mem = s.mem := rfl
@[simp] theorem State.emitEv_txLog (l : Label) : (s.emitEv l).txLog = s.txLog := rfl
@[simp] theorem State.emitEv_svcCnt (l : Label) : (s.emitEv l).svcCnt = s.svcCnt := rfl
@[simp] theorem State.emitEv_evLog (l : Label) : (s.emitEv l).evLog = s.evLog ++ [l] := rfl
@[simp] theorem State.emitEv_cfg (l : Label) : (s.emitEv l).cfg = s.cfg := rfl
@[simp] theorem State.emitEv_script (l : Label) : (s.emitEv l).script = s.script := rfl
@[simp] theorem State.emitEv_draws (l : Label) : (s.emitEv l).draws = s.draws := rfl
@[simp] theorem State.emitEv_memDraw (l : Label) : (s.emitEv l).memDraw = s.memDraw := rfl
@[simp] theorem State.emitEv_waited (l : Label) : (s.emitEv l).waited = s.waited := rfl

@[simp] theorem State.emitTx_pin (b : Byte) : (s.emitTx b).pin = s.pin := rfl
@[simp] theorem State.emitTx_tcnt (b : Byte) : (s.emitTx b).tcnt = s.tcnt := rfl
@[simp] theorem State.emitTx_eif (b : Byte) : (s.emitTx b).eif = s.eif := rfl
@[simp] theorem State.emitTx_tovf (b : Byte) : (s.emitTx b).tovf = s.tovf := rfl
@[simp] theorem State.emitTx_ie (b : Byte) : (s.emitTx b).ie = s.ie := rfl
@[simp] theorem State.emitTx_inHead (b : Byte) : (s.emitTx b).inHead = s.inHead := rfl
@[simp] theorem State.emitTx_rPort (b : Byte) : (s.emitTx b).rPort = s.rPort := rfl
@[simp] theorem State.emitTx_rTlo (b : Byte) : (s.emitTx b).rTlo = s.rTlo := rfl
@[simp] theorem State.emitTx_rThi (b : Byte) : (s.emitTx b).rThi = s.rThi := rfl
@[simp] theorem State.emitTx_hph (b : Byte) : (s.emitTx b).hph = s.hph := rfl
@[simp] theorem State.emitTx_hkind (b : Byte) : (s.emitTx b).hkind = s.hkind := rfl
@[simp] theorem State.emitTx_mph (b : Byte) : (s.emitTx b).mph = s.mph := rfl
@[simp] theorem State.emitTx_inTail (b : Byte) : (s.emitTx b).inTail = s.inTail := rfl
@[simp] theorem State.emitTx_mNe (b : Byte) : (s.emitTx b).mNe = s.mNe := rfl
@[simp] theorem State.emitTx_mRec (b : Byte) : (s.emitTx b).mRec = s.mRec := rfl
@[simp] theorem State.emitTx_quota (b : Byte) : (s.emitTx b).quota = s.quota := rfl
@[simp] theorem State.emitTx_outHead (b : Byte) : (s.emitTx b).outHead = s.outHead := rfl
@[simp] theorem State.emitTx_outTail (b : Byte) : (s.emitTx b).outTail = s.outTail := rfl
@[simp] theorem State.emitTx_lineCnt (b : Byte) : (s.emitTx b).lineCnt = s.lineCnt := rfl
@[simp] theorem State.emitTx_txbuf (b : Byte) : (s.emitTx b).txbuf = s.txbuf := rfl
@[simp] theorem State.emitTx_cur (b : Byte) : (s.emitTx b).cur = s.cur + 1 := rfl
@[simp] theorem State.emitTx_mem (b : Byte) : (s.emitTx b).mem = s.mem := rfl
@[simp] theorem State.emitTx_txLog (b : Byte) : (s.emitTx b).txLog = s.txLog ++ [b] := rfl
@[simp] theorem State.emitTx_svcCnt (b : Byte) : (s.emitTx b).svcCnt = s.svcCnt := rfl
@[simp] theorem State.emitTx_evLog (b : Byte) : (s.emitTx b).evLog = s.evLog := rfl
@[simp] theorem State.emitTx_cfg (b : Byte) : (s.emitTx b).cfg = s.cfg := rfl
@[simp] theorem State.emitTx_script (b : Byte) : (s.emitTx b).script = s.script := rfl
@[simp] theorem State.emitTx_draws (b : Byte) : (s.emitTx b).draws = s.draws := rfl
@[simp] theorem State.emitTx_memDraw (b : Byte) : (s.emitTx b).memDraw = s.memDraw := rfl
@[simp] theorem State.emitTx_waited (b : Byte) : (s.emitTx b).waited = s.waited := rfl

@[simp] theorem State.emitSvc_pin : (s.emitSvc).pin = s.pin := rfl
@[simp] theorem State.emitSvc_tcnt : (s.emitSvc).tcnt = s.tcnt := rfl
@[simp] theorem State.emitSvc_eif : (s.emitSvc).eif = s.eif := rfl
@[simp] theorem State.emitSvc_tovf : (s.emitSvc).tovf = s.tovf := rfl
@[simp] theorem State.emitSvc_ie : (s.emitSvc).ie = s.ie := rfl
@[simp] theorem State.emitSvc_inHead : (s.emitSvc).inHead = s.inHead := rfl
@[simp] theorem State.emitSvc_rPort : (s.emitSvc).rPort = s.rPort := rfl
@[simp] theorem State.emitSvc_rTlo : (s.emitSvc).rTlo = s.rTlo := rfl
@[simp] theorem State.emitSvc_rThi : (s.emitSvc).rThi = s.rThi := rfl
@[simp] theorem State.emitSvc_hph : (s.emitSvc).hph = s.hph := rfl
@[simp] theorem State.emitSvc_hkind : (s.emitSvc).hkind = s.hkind := rfl
@[simp] theorem State.emitSvc_mph : (s.emitSvc).mph = s.mph := rfl
@[simp] theorem State.emitSvc_inTail : (s.emitSvc).inTail = s.inTail := rfl
@[simp] theorem State.emitSvc_mNe : (s.emitSvc).mNe = s.mNe := rfl
@[simp] theorem State.emitSvc_mRec : (s.emitSvc).mRec = s.mRec := rfl
@[simp] theorem State.emitSvc_quota : (s.emitSvc).quota = s.quota := rfl
@[simp] theorem State.emitSvc_outHead : (s.emitSvc).outHead = s.outHead := rfl
@[simp] theorem State.emitSvc_outTail : (s.emitSvc).outTail = s.outTail := rfl
@[simp] theorem State.emitSvc_lineCnt : (s.emitSvc).lineCnt = s.lineCnt := rfl
@[simp] theorem State.emitSvc_txbuf : (s.emitSvc).txbuf = s.txbuf := rfl
@[simp] theorem State.emitSvc_cur : (s.emitSvc).cur = s.cur := rfl
@[simp] theorem State.emitSvc_mem : (s.emitSvc).mem = s.mem := rfl
@[simp] theorem State.emitSvc_txLog : (s.emitSvc).txLog = s.txLog := rfl
@[simp] theorem State.emitSvc_svcCnt : (s.emitSvc).svcCnt = s.svcCnt + 1 := rfl
@[simp] theorem State.emitSvc_evLog : (s.emitSvc).evLog = s.evLog := rfl
@[simp] theorem State.emitSvc_cfg : (s.emitSvc).cfg = s.cfg := rfl
@[simp] theorem State.emitSvc_script : (s.emitSvc).script = s.script := rfl
@[simp] theorem State.emitSvc_draws : (s.emitSvc).draws = s.draws := rfl
@[simp] theorem State.emitSvc_memDraw : (s.emitSvc).memDraw = s.memDraw := rfl
@[simp] theorem State.emitSvc_waited : (s.emitSvc).waited = s.waited := rfl

@[simp] theorem State.setMph_pin (p : BitVec 4) : (s.setMph p).pin = s.pin := rfl
@[simp] theorem State.setMph_tcnt (p : BitVec 4) : (s.setMph p).tcnt = s.tcnt := rfl
@[simp] theorem State.setMph_eif (p : BitVec 4) : (s.setMph p).eif = s.eif := rfl
@[simp] theorem State.setMph_tovf (p : BitVec 4) : (s.setMph p).tovf = s.tovf := rfl
@[simp] theorem State.setMph_ie (p : BitVec 4) : (s.setMph p).ie = s.ie := rfl
@[simp] theorem State.setMph_inHead (p : BitVec 4) : (s.setMph p).inHead = s.inHead := rfl
@[simp] theorem State.setMph_rPort (p : BitVec 4) : (s.setMph p).rPort = s.rPort := rfl
@[simp] theorem State.setMph_rTlo (p : BitVec 4) : (s.setMph p).rTlo = s.rTlo := rfl
@[simp] theorem State.setMph_rThi (p : BitVec 4) : (s.setMph p).rThi = s.rThi := rfl
@[simp] theorem State.setMph_hph (p : BitVec 4) : (s.setMph p).hph = s.hph := rfl
@[simp] theorem State.setMph_hkind (p : BitVec 4) : (s.setMph p).hkind = s.hkind := rfl
@[simp] theorem State.setMph_mph (p : BitVec 4) : (s.setMph p).mph = p := rfl
@[simp] theorem State.setMph_inTail (p : BitVec 4) : (s.setMph p).inTail = s.inTail := rfl
@[simp] theorem State.setMph_mNe (p : BitVec 4) : (s.setMph p).mNe = s.mNe := rfl
@[simp] theorem State.setMph_mRec (p : BitVec 4) : (s.setMph p).mRec = s.mRec := rfl
@[simp] theorem State.setMph_quota (p : BitVec 4) : (s.setMph p).quota = s.quota := rfl
@[simp] theorem State.setMph_outHead (p : BitVec 4) : (s.setMph p).outHead = s.outHead := rfl
@[simp] theorem State.setMph_outTail (p : BitVec 4) : (s.setMph p).outTail = s.outTail := rfl
@[simp] theorem State.setMph_lineCnt (p : BitVec 4) : (s.setMph p).lineCnt = s.lineCnt := rfl
@[simp] theorem State.setMph_txbuf (p : BitVec 4) : (s.setMph p).txbuf = s.txbuf := rfl
@[simp] theorem State.setMph_cur (p : BitVec 4) : (s.setMph p).cur = s.cur := rfl
@[simp] theorem State.setMph_mem (p : BitVec 4) : (s.setMph p).mem = s.mem := rfl
@[simp] theorem State.setMph_txLog (p : BitVec 4) : (s.setMph p).txLog = s.txLog := rfl
@[simp] theorem State.setMph_svcCnt (p : BitVec 4) : (s.setMph p).svcCnt = s.svcCnt := rfl
@[simp] theorem State.setMph_evLog (p : BitVec 4) : (s.setMph p).evLog = s.evLog := rfl
@[simp] theorem State.setMph_cfg (p : BitVec 4) : (s.setMph p).cfg = s.cfg := rfl
@[simp] theorem State.setMph_script (p : BitVec 4) : (s.setMph p).script = s.script := rfl
@[simp] theorem State.setMph_draws (p : BitVec 4) : (s.setMph p).draws = s.draws := rfl
@[simp] theorem State.setMph_memDraw (p : BitVec 4) : (s.setMph p).memDraw = s.memDraw := rfl
@[simp] theorem State.setMph_waited (p : BitVec 4) : (s.setMph p).waited = s.waited := rfl

@[simp] theorem State.setHph_pin (p : BitVec 3) : (s.setHph p).pin = s.pin := rfl
@[simp] theorem State.setHph_tcnt (p : BitVec 3) : (s.setHph p).tcnt = s.tcnt := rfl
@[simp] theorem State.setHph_eif (p : BitVec 3) : (s.setHph p).eif = s.eif := rfl
@[simp] theorem State.setHph_tovf (p : BitVec 3) : (s.setHph p).tovf = s.tovf := rfl
@[simp] theorem State.setHph_ie (p : BitVec 3) : (s.setHph p).ie = s.ie := rfl
@[simp] theorem State.setHph_inHead (p : BitVec 3) : (s.setHph p).inHead = s.inHead := rfl
@[simp] theorem State.setHph_rPort (p : BitVec 3) : (s.setHph p).rPort = s.rPort := rfl
@[simp] theorem State.setHph_rTlo (p : BitVec 3) : (s.setHph p).rTlo = s.rTlo := rfl
@[simp] theorem State.setHph_rThi (p : BitVec 3) : (s.setHph p).rThi = s.rThi := rfl
@[simp] theorem State.setHph_hph (p : BitVec 3) : (s.setHph p).hph = p := rfl
@[simp] theorem State.setHph_hkind (p : BitVec 3) : (s.setHph p).hkind = s.hkind := rfl
@[simp] theorem State.setHph_mph (p : BitVec 3) : (s.setHph p).mph = s.mph := rfl
@[simp] theorem State.setHph_inTail (p : BitVec 3) : (s.setHph p).inTail = s.inTail := rfl
@[simp] theorem State.setHph_mNe (p : BitVec 3) : (s.setHph p).mNe = s.mNe := rfl
@[simp] theorem State.setHph_mRec (p : BitVec 3) : (s.setHph p).mRec = s.mRec := rfl
@[simp] theorem State.setHph_quota (p : BitVec 3) : (s.setHph p).quota = s.quota := rfl
@[simp] theorem State.setHph_outHead (p : BitVec 3) : (s.setHph p).outHead = s.outHead := rfl
@[simp] theorem State.setHph_outTail (p : BitVec 3) : (s.setHph p).outTail = s.outTail := rfl
@[simp] theorem State.setHph_lineCnt (p : BitVec 3) : (s.setHph p).lineCnt = s.lineCnt := rfl
@[simp] theorem State.setHph_txbuf (p : BitVec 3) : (s.setHph p).txbuf = s.txbuf := rfl
@[simp] theorem State.setHph_cur (p : BitVec 3) : (s.setHph p).cur = s.cur := rfl
@[simp] theorem State.setHph_mem (p : BitVec 3) : (s.setHph p).mem = s.mem := rfl
@[simp] theorem State.setHph_txLog (p : BitVec 3) : (s.setHph p).txLog = s.txLog := rfl
@[simp] theorem State.setHph_svcCnt (p : BitVec 3) : (s.setHph p).svcCnt = s.svcCnt := rfl
@[simp] theorem State.setHph_evLog (p : BitVec 3) : (s.setHph p).evLog = s.evLog := rfl
@[simp] theorem State.setHph_cfg (p : BitVec 3) : (s.setHph p).cfg = s.cfg := rfl
@[simp] theorem State.setHph_script (p : BitVec 3) : (s.setHph p).script = s.script := rfl
@[simp] theorem State.setHph_draws (p : BitVec 3) : (s.setHph p).draws = s.draws := rfl
@[simp] theorem State.setHph_memDraw (p : BitVec 3) : (s.setHph p).memDraw = s.memDraw := rfl
@[simp] theorem State.setHph_waited (p : BitVec 3) : (s.setHph p).waited = s.waited := rfl

@[simp] theorem State.enterHandler_pin (k : Bool) : (s.enterHandler k).pin = s.pin := rfl
@[simp] theorem State.enterHandler_tcnt (k : Bool) : (s.enterHandler k).tcnt = s.tcnt := rfl
@[simp] theorem State.enterHandler_eif (k : Bool) : (s.enterHandler k).eif = s.eif := rfl
@[simp] theorem State.enterHandler_tovf (k : Bool) : (s.enterHandler k).tovf = s.tovf := rfl
@[simp] theorem State.enterHandler_ie (k : Bool) : (s.enterHandler k).ie = s.ie := rfl
@[simp] theorem State.enterHandler_inHead (k : Bool) : (s.enterHandler k).inHead = s.inHead := rfl
@[simp] theorem State.enterHandler_rPort (k : Bool) : (s.enterHandler k).rPort = s.rPort := rfl
@[simp] theorem State.enterHandler_rTlo (k : Bool) : (s.enterHandler k).rTlo = s.rTlo := rfl
@[simp] theorem State.enterHandler_rThi (k : Bool) : (s.enterHandler k).rThi = s.rThi := rfl
@[simp] theorem State.enterHandler_hph (k : Bool) : (s.enterHandler k).hph = hPort := rfl
@[simp] theorem State.enterHandler_hkind (k : Bool) : (s.enterHandler k).hkind = k := rfl
@[simp] theorem State.enterHandler_mph (k : Bool) : (s.enterHandler k).mph = s.mph := rfl
@[simp] theorem State.enterHandler_inTail (k : Bool) : (s.enterHandler k).inTail = s.inTail := rfl
@[simp] theorem State.enterHandler_mNe (k : Bool) : (s.enterHandler k).mNe = s.mNe := rfl
@[simp] theorem State.enterHandler_mRec (k : Bool) : (s.enterHandler k).mRec = s.mRec := rfl
@[simp] theorem State.enterHandler_quota (k : Bool) : (s.enterHandler k).quota = s.quota := rfl
@[simp] theorem State.enterHandler_outHead (k : Bool) : (s.enterHandler k).outHead = s.outHead := rfl
@[simp] theorem State.enterHandler_outTail (k : Bool) : (s.enterHandler k).outTail = s.outTail := rfl
@[simp] theorem State.enterHandler_lineCnt (k : Bool) : (s.enterHandler k).lineCnt = s.lineCnt := rfl
@[simp] theorem State.enterHandler_txbuf (k : Bool) : (s.enterHandler k).txbuf = s.txbuf := rfl
@[simp] theorem State.enterHandler_cur (k : Bool) : (s.enterHandler k).cur = s.cur := rfl
@[simp] theorem State.enterHandler_mem (k : Bool) : (s.enterHandler k).mem = s.mem := rfl
@[simp] theorem State.enterHandler_txLog (k : Bool) : (s.enterHandler k).txLog = s.txLog := rfl
@[simp] theorem State.enterHandler_svcCnt (k : Bool) : (s.enterHandler k).svcCnt = s.svcCnt := rfl
@[simp] theorem State.enterHandler_evLog (k : Bool) : (s.enterHandler k).evLog = s.evLog := rfl
@[simp] theorem State.enterHandler_cfg (k : Bool) : (s.enterHandler k).cfg = s.cfg := rfl
@[simp] theorem State.enterHandler_script (k : Bool) : (s.enterHandler k).script = s.script := rfl
@[simp] theorem State.enterHandler_draws (k : Bool) : (s.enterHandler k).draws = s.draws := rfl
@[simp] theorem State.enterHandler_memDraw (k : Bool) : (s.enterHandler k).memDraw = s.memDraw := rfl
@[simp] theorem State.enterHandler_waited (k : Bool) : (s.enterHandler k).waited = s.waited := rfl

@[simp] theorem State.returnFromHandler_pin : (s.returnFromHandler).pin = s.pin := rfl
@[simp] theorem State.returnFromHandler_tcnt : (s.returnFromHandler).tcnt = s.tcnt := rfl
@[simp] theorem State.returnFromHandler_eif : (s.returnFromHandler).eif = s.eif := rfl
@[simp] theorem State.returnFromHandler_tovf : (s.returnFromHandler).tovf = s.tovf := rfl
@[simp] theorem State.returnFromHandler_ie : (s.returnFromHandler).ie = s.ie := rfl
@[simp] theorem State.returnFromHandler_inHead : (s.returnFromHandler).inHead = s.inHead := rfl
@[simp] theorem State.returnFromHandler_rPort : (s.returnFromHandler).rPort = s.rPort := rfl
@[simp] theorem State.returnFromHandler_rTlo : (s.returnFromHandler).rTlo = s.rTlo := rfl
@[simp] theorem State.returnFromHandler_rThi : (s.returnFromHandler).rThi = s.rThi := rfl
@[simp] theorem State.returnFromHandler_hph : (s.returnFromHandler).hph = hIdle := rfl
@[simp] theorem State.returnFromHandler_hkind : (s.returnFromHandler).hkind = s.hkind := rfl
@[simp] theorem State.returnFromHandler_mph : (s.returnFromHandler).mph = s.mph := rfl
@[simp] theorem State.returnFromHandler_inTail : (s.returnFromHandler).inTail = s.inTail := rfl
@[simp] theorem State.returnFromHandler_mNe : (s.returnFromHandler).mNe = s.mNe := rfl
@[simp] theorem State.returnFromHandler_mRec : (s.returnFromHandler).mRec = s.mRec := rfl
@[simp] theorem State.returnFromHandler_quota : (s.returnFromHandler).quota = s.quota := rfl
@[simp] theorem State.returnFromHandler_outHead : (s.returnFromHandler).outHead = s.outHead := rfl
@[simp] theorem State.returnFromHandler_outTail : (s.returnFromHandler).outTail = s.outTail := rfl
@[simp] theorem State.returnFromHandler_lineCnt : (s.returnFromHandler).lineCnt = s.lineCnt := rfl
@[simp] theorem State.returnFromHandler_txbuf : (s.returnFromHandler).txbuf = s.txbuf := rfl
@[simp] theorem State.returnFromHandler_cur : (s.returnFromHandler).cur = s.cur := rfl
@[simp] theorem State.returnFromHandler_mem : (s.returnFromHandler).mem = s.mem := rfl
@[simp] theorem State.returnFromHandler_txLog : (s.returnFromHandler).txLog = s.txLog := rfl
@[simp] theorem State.returnFromHandler_svcCnt : (s.returnFromHandler).svcCnt = s.svcCnt := rfl
@[simp] theorem State.returnFromHandler_evLog : (s.returnFromHandler).evLog = s.evLog := rfl
@[simp] theorem State.returnFromHandler_cfg : (s.returnFromHandler).cfg = s.cfg := rfl
@[simp] theorem State.returnFromHandler_script : (s.returnFromHandler).script = s.script := rfl
@[simp] theorem State.returnFromHandler_draws : (s.returnFromHandler).draws = s.draws := rfl
@[simp] theorem State.returnFromHandler_memDraw : (s.returnFromHandler).memDraw = s.memDraw := rfl
@[simp] theorem State.returnFromHandler_waited : (s.returnFromHandler).waited = s.waited := rfl

@[simp] theorem State.pushIn_pin (r : Record) : (s.pushIn r).pin = s.pin := rfl
@[simp] theorem State.pushIn_tcnt (r : Record) : (s.pushIn r).tcnt = s.tcnt := rfl
@[simp] theorem State.pushIn_eif (r : Record) : (s.pushIn r).eif = s.eif := rfl
@[simp] theorem State.pushIn_tovf (r : Record) : (s.pushIn r).tovf = s.tovf := rfl
@[simp] theorem State.pushIn_ie (r : Record) : (s.pushIn r).ie = s.ie := rfl
@[simp] theorem State.pushIn_inHead (r : Record) : (s.pushIn r).inHead = nextIndex s.cfg.inSlots s.inHead := rfl
@[simp] theorem State.pushIn_rPort (r : Record) : (s.pushIn r).rPort = s.rPort := rfl
@[simp] theorem State.pushIn_rTlo (r : Record) : (s.pushIn r).rTlo = s.rTlo := rfl
@[simp] theorem State.pushIn_rThi (r : Record) : (s.pushIn r).rThi = s.rThi := rfl
@[simp] theorem State.pushIn_hph (r : Record) : (s.pushIn r).hph = s.hph := rfl
@[simp] theorem State.pushIn_hkind (r : Record) : (s.pushIn r).hkind = s.hkind := rfl
@[simp] theorem State.pushIn_mph (r : Record) : (s.pushIn r).mph = s.mph := rfl
@[simp] theorem State.pushIn_inTail (r : Record) : (s.pushIn r).inTail = s.inTail := rfl
@[simp] theorem State.pushIn_mNe (r : Record) : (s.pushIn r).mNe = s.mNe := rfl
@[simp] theorem State.pushIn_mRec (r : Record) : (s.pushIn r).mRec = s.mRec := rfl
@[simp] theorem State.pushIn_quota (r : Record) : (s.pushIn r).quota = s.quota := rfl
@[simp] theorem State.pushIn_outHead (r : Record) : (s.pushIn r).outHead = s.outHead := rfl
@[simp] theorem State.pushIn_outTail (r : Record) : (s.pushIn r).outTail = s.outTail := rfl
@[simp] theorem State.pushIn_lineCnt (r : Record) : (s.pushIn r).lineCnt = s.lineCnt := rfl
@[simp] theorem State.pushIn_txbuf (r : Record) : (s.pushIn r).txbuf = s.txbuf := rfl
@[simp] theorem State.pushIn_cur (r : Record) : (s.pushIn r).cur = s.cur := rfl
@[simp] theorem State.pushIn_mem (r : Record) : (s.pushIn r).mem = s.mem.putRecord (inSlotAddr s.cfg s.inHead.toNat) r := rfl
@[simp] theorem State.pushIn_txLog (r : Record) : (s.pushIn r).txLog = s.txLog := rfl
@[simp] theorem State.pushIn_svcCnt (r : Record) : (s.pushIn r).svcCnt = s.svcCnt := rfl
@[simp] theorem State.pushIn_evLog (r : Record) : (s.pushIn r).evLog = s.evLog := rfl
@[simp] theorem State.pushIn_cfg (r : Record) : (s.pushIn r).cfg = s.cfg := rfl
@[simp] theorem State.pushIn_script (r : Record) : (s.pushIn r).script = s.script := rfl
@[simp] theorem State.pushIn_draws (r : Record) : (s.pushIn r).draws = s.draws := rfl
@[simp] theorem State.pushIn_memDraw (r : Record) : (s.pushIn r).memDraw = s.memDraw := rfl
@[simp] theorem State.pushIn_waited (r : Record) : (s.pushIn r).waited = s.waited := rfl

@[simp] theorem State.putOut_pin (r : Record) : (s.putOut r).pin = s.pin := rfl
@[simp] theorem State.putOut_tcnt (r : Record) : (s.putOut r).tcnt = s.tcnt := rfl
@[simp] theorem State.putOut_eif (r : Record) : (s.putOut r).eif = s.eif := rfl
@[simp] theorem State.putOut_tovf (r : Record) : (s.putOut r).tovf = s.tovf := rfl
@[simp] theorem State.putOut_ie (r : Record) : (s.putOut r).ie = s.ie := rfl
@[simp] theorem State.putOut_inHead (r : Record) : (s.putOut r).inHead = s.inHead := rfl
@[simp] theorem State.putOut_rPort (r : Record) : (s.putOut r).rPort = s.rPort := rfl
@[simp] theorem State.putOut_rTlo (r : Record) : (s.putOut r).rTlo = s.rTlo := rfl
@[simp] theorem State.putOut_rThi (r : Record) : (s.putOut r).rThi = s.rThi := rfl
@[simp] theorem State.putOut_hph (r : Record) : (s.putOut r).hph = s.hph := rfl
@[simp] theorem State.putOut_hkind (r : Record) : (s.putOut r).hkind = s.hkind := rfl
@[simp] theorem State.putOut_mph (r : Record) : (s.putOut r).mph = s.mph := rfl
@[simp] theorem State.putOut_inTail (r : Record) : (s.putOut r).inTail = s.inTail := rfl
@[simp] theorem State.putOut_mNe (r : Record) : (s.putOut r).mNe = s.mNe := rfl
@[simp] theorem State.putOut_mRec (r : Record) : (s.putOut r).mRec = s.mRec := rfl
@[simp] theorem State.putOut_quota (r : Record) : (s.putOut r).quota = s.quota := rfl
@[simp] theorem State.putOut_outHead (r : Record) : (s.putOut r).outHead = nextIndex s.cfg.outSlots s.outHead := rfl
@[simp] theorem State.putOut_outTail (r : Record) : (s.putOut r).outTail = s.outTail := rfl
@[simp] theorem State.putOut_lineCnt (r : Record) : (s.putOut r).lineCnt = s.lineCnt := rfl
@[simp] theorem State.putOut_txbuf (r : Record) : (s.putOut r).txbuf = s.txbuf := rfl
@[simp] theorem State.putOut_cur (r : Record) : (s.putOut r).cur = s.cur := rfl
@[simp] theorem State.putOut_mem (r : Record) : (s.putOut r).mem = s.mem.putRecord (outSlotAddr s.cfg s.outHead.toNat) r := rfl
@[simp] theorem State.putOut_txLog (r : Record) : (s.putOut r).txLog = s.txLog := rfl
@[simp] theorem State.putOut_svcCnt (r : Record) : (s.putOut r).svcCnt = s.svcCnt := rfl
@[simp] theorem State.putOut_evLog (r : Record) : (s.putOut r).evLog = s.evLog := rfl
@[simp] theorem State.putOut_cfg (r : Record) : (s.putOut r).cfg = s.cfg := rfl
@[simp] theorem State.putOut_script (r : Record) : (s.putOut r).script = s.script := rfl
@[simp] theorem State.putOut_draws (r : Record) : (s.putOut r).draws = s.draws := rfl
@[simp] theorem State.putOut_memDraw (r : Record) : (s.putOut r).memDraw = s.memDraw := rfl
@[simp] theorem State.putOut_waited (r : Record) : (s.putOut r).waited = s.waited := rfl

@[simp] theorem State.advanceInTail_pin : (s.advanceInTail).pin = s.pin := rfl
@[simp] theorem State.advanceInTail_tcnt : (s.advanceInTail).tcnt = s.tcnt := rfl
@[simp] theorem State.advanceInTail_eif : (s.advanceInTail).eif = s.eif := rfl
@[simp] theorem State.advanceInTail_tovf : (s.advanceInTail).tovf = s.tovf := rfl
@[simp] theorem State.advanceInTail_ie : (s.advanceInTail).ie = s.ie := rfl
@[simp] theorem State.advanceInTail_inHead : (s.advanceInTail).inHead = s.inHead := rfl
@[simp] theorem State.advanceInTail_rPort : (s.advanceInTail).rPort = s.rPort := rfl
@[simp] theorem State.advanceInTail_rTlo : (s.advanceInTail).rTlo = s.rTlo := rfl
@[simp] theorem State.advanceInTail_rThi : (s.advanceInTail).rThi = s.rThi := rfl
@[simp] theorem State.advanceInTail_hph : (s.advanceInTail).hph = s.hph := rfl
@[simp] theorem State.advanceInTail_hkind : (s.advanceInTail).hkind = s.hkind := rfl
@[simp] theorem State.advanceInTail_mph : (s.advanceInTail).mph = s.mph := rfl
@[simp] theorem State.advanceInTail_inTail : (s.advanceInTail).inTail = nextIndex s.cfg.inSlots s.inTail := rfl
@[simp] theorem State.advanceInTail_mNe : (s.advanceInTail).mNe = s.mNe := rfl
@[simp] theorem State.advanceInTail_mRec : (s.advanceInTail).mRec = s.mRec := rfl
@[simp] theorem State.advanceInTail_quota : (s.advanceInTail).quota = s.quota := rfl
@[simp] theorem State.advanceInTail_outHead : (s.advanceInTail).outHead = s.outHead := rfl
@[simp] theorem State.advanceInTail_outTail : (s.advanceInTail).outTail = s.outTail := rfl
@[simp] theorem State.advanceInTail_lineCnt : (s.advanceInTail).lineCnt = s.lineCnt := rfl
@[simp] theorem State.advanceInTail_txbuf : (s.advanceInTail).txbuf = s.txbuf := rfl
@[simp] theorem State.advanceInTail_cur : (s.advanceInTail).cur = s.cur := rfl
@[simp] theorem State.advanceInTail_mem : (s.advanceInTail).mem = s.mem := rfl
@[simp] theorem State.advanceInTail_txLog : (s.advanceInTail).txLog = s.txLog := rfl
@[simp] theorem State.advanceInTail_svcCnt : (s.advanceInTail).svcCnt = s.svcCnt := rfl
@[simp] theorem State.advanceInTail_evLog : (s.advanceInTail).evLog = s.evLog := rfl
@[simp] theorem State.advanceInTail_cfg : (s.advanceInTail).cfg = s.cfg := rfl
@[simp] theorem State.advanceInTail_script : (s.advanceInTail).script = s.script := rfl
@[simp] theorem State.advanceInTail_draws : (s.advanceInTail).draws = s.draws := rfl
@[simp] theorem State.advanceInTail_memDraw : (s.advanceInTail).memDraw = s.memDraw := rfl
@[simp] theorem State.advanceInTail_waited : (s.advanceInTail).waited = s.waited := rfl

@[simp] theorem State.setQuota_pin (q : BitVec 8) : (s.setQuota q).pin = s.pin := rfl
@[simp] theorem State.setQuota_tcnt (q : BitVec 8) : (s.setQuota q).tcnt = s.tcnt := rfl
@[simp] theorem State.setQuota_eif (q : BitVec 8) : (s.setQuota q).eif = s.eif := rfl
@[simp] theorem State.setQuota_tovf (q : BitVec 8) : (s.setQuota q).tovf = s.tovf := rfl
@[simp] theorem State.setQuota_ie (q : BitVec 8) : (s.setQuota q).ie = s.ie := rfl
@[simp] theorem State.setQuota_inHead (q : BitVec 8) : (s.setQuota q).inHead = s.inHead := rfl
@[simp] theorem State.setQuota_rPort (q : BitVec 8) : (s.setQuota q).rPort = s.rPort := rfl
@[simp] theorem State.setQuota_rTlo (q : BitVec 8) : (s.setQuota q).rTlo = s.rTlo := rfl
@[simp] theorem State.setQuota_rThi (q : BitVec 8) : (s.setQuota q).rThi = s.rThi := rfl
@[simp] theorem State.setQuota_hph (q : BitVec 8) : (s.setQuota q).hph = s.hph := rfl
@[simp] theorem State.setQuota_hkind (q : BitVec 8) : (s.setQuota q).hkind = s.hkind := rfl
@[simp] theorem State.setQuota_mph (q : BitVec 8) : (s.setQuota q).mph = s.mph := rfl
@[simp] theorem State.setQuota_inTail (q : BitVec 8) : (s.setQuota q).inTail = s.inTail := rfl
@[simp] theorem State.setQuota_mNe (q : BitVec 8) : (s.setQuota q).mNe = s.mNe := rfl
@[simp] theorem State.setQuota_mRec (q : BitVec 8) : (s.setQuota q).mRec = s.mRec := rfl
@[simp] theorem State.setQuota_quota (q : BitVec 8) : (s.setQuota q).quota = q := rfl
@[simp] theorem State.setQuota_outHead (q : BitVec 8) : (s.setQuota q).outHead = s.outHead := rfl
@[simp] theorem State.setQuota_outTail (q : BitVec 8) : (s.setQuota q).outTail = s.outTail := rfl
@[simp] theorem State.setQuota_lineCnt (q : BitVec 8) : (s.setQuota q).lineCnt = s.lineCnt := rfl
@[simp] theorem State.setQuota_txbuf (q : BitVec 8) : (s.setQuota q).txbuf = s.txbuf := rfl
@[simp] theorem State.setQuota_cur (q : BitVec 8) : (s.setQuota q).cur = s.cur := rfl
@[simp] theorem State.setQuota_mem (q : BitVec 8) : (s.setQuota q).mem = s.mem := rfl
@[simp] theorem State.setQuota_txLog (q : BitVec 8) : (s.setQuota q).txLog = s.txLog := rfl
@[simp] theorem State.setQuota_svcCnt (q : BitVec 8) : (s.setQuota q).svcCnt = s.svcCnt := rfl
@[simp] theorem State.setQuota_evLog (q : BitVec 8) : (s.setQuota q).evLog = s.evLog := rfl
@[simp] theorem State.setQuota_cfg (q : BitVec 8) : (s.setQuota q).cfg = s.cfg := rfl
@[simp] theorem State.setQuota_script (q : BitVec 8) : (s.setQuota q).script = s.script := rfl
@[simp] theorem State.setQuota_draws (q : BitVec 8) : (s.setQuota q).draws = s.draws := rfl
@[simp] theorem State.setQuota_memDraw (q : BitVec 8) : (s.setQuota q).memDraw = s.memDraw := rfl
@[simp] theorem State.setQuota_waited (q : BitVec 8) : (s.setQuota q).waited = s.waited := rfl

@[simp] theorem State.render_pin (r : Record) : (s.render r).pin = s.pin := rfl
@[simp] theorem State.render_tcnt (r : Record) : (s.render r).tcnt = s.tcnt := rfl
@[simp] theorem State.render_eif (r : Record) : (s.render r).eif = s.eif := rfl
@[simp] theorem State.render_tovf (r : Record) : (s.render r).tovf = s.tovf := rfl
@[simp] theorem State.render_ie (r : Record) : (s.render r).ie = s.ie := rfl
@[simp] theorem State.render_inHead (r : Record) : (s.render r).inHead = s.inHead := rfl
@[simp] theorem State.render_rPort (r : Record) : (s.render r).rPort = s.rPort := rfl
@[simp] theorem State.render_rTlo (r : Record) : (s.render r).rTlo = s.rTlo := rfl
@[simp] theorem State.render_rThi (r : Record) : (s.render r).rThi = s.rThi := rfl
@[simp] theorem State.render_hph (r : Record) : (s.render r).hph = s.hph := rfl
@[simp] theorem State.render_hkind (r : Record) : (s.render r).hkind = s.hkind := rfl
@[simp] theorem State.render_mph (r : Record) : (s.render r).mph = s.mph := rfl
@[simp] theorem State.render_inTail (r : Record) : (s.render r).inTail = s.inTail := rfl
@[simp] theorem State.render_mNe (r : Record) : (s.render r).mNe = s.mNe := rfl
@[simp] theorem State.render_mRec (r : Record) : (s.render r).mRec = s.mRec := rfl
@[simp] theorem State.render_quota (r : Record) : (s.render r).quota = s.quota := rfl
@[simp] theorem State.render_outHead (r : Record) : (s.render r).outHead = s.outHead := rfl
@[simp] theorem State.render_outTail (r : Record) : (s.render r).outTail = s.outTail := rfl
@[simp] theorem State.render_lineCnt (r : Record) : (s.render r).lineCnt = (lineStep s.cfg.tokensPerLine s.lineCnt).2 := rfl
@[simp] theorem State.render_txbuf (r : Record) : (s.render r).txbuf = tokenText r (lineStep s.cfg.tokensPerLine s.lineCnt).1 := rfl
@[simp] theorem State.render_cur (r : Record) : (s.render r).cur = 0 := rfl
@[simp] theorem State.render_mem (r : Record) : (s.render r).mem = s.mem := rfl
@[simp] theorem State.render_txLog (r : Record) : (s.render r).txLog = s.txLog := rfl
@[simp] theorem State.render_svcCnt (r : Record) : (s.render r).svcCnt = s.svcCnt := rfl
@[simp] theorem State.render_evLog (r : Record) : (s.render r).evLog = s.evLog := rfl
@[simp] theorem State.render_cfg (r : Record) : (s.render r).cfg = s.cfg := rfl
@[simp] theorem State.render_script (r : Record) : (s.render r).script = s.script := rfl
@[simp] theorem State.render_draws (r : Record) : (s.render r).draws = s.draws := rfl
@[simp] theorem State.render_memDraw (r : Record) : (s.render r).memDraw = s.memDraw := rfl
@[simp] theorem State.render_waited (r : Record) : (s.render r).waited = s.waited := rfl

@[simp] theorem State.movePins_pin (v : Byte) : (s.movePins v).pin = v := rfl
@[simp] theorem State.movePins_tcnt (v : Byte) : (s.movePins v).tcnt = s.tcnt := rfl
@[simp] theorem State.movePins_eif (v : Byte) : (s.movePins v).eif = s.eif ||| edgeFlags s.cfg (changedPins s.cfg s.pin v) := rfl
@[simp] theorem State.movePins_tovf (v : Byte) : (s.movePins v).tovf = s.tovf := rfl
@[simp] theorem State.movePins_ie (v : Byte) : (s.movePins v).ie = s.ie := rfl
@[simp] theorem State.movePins_inHead (v : Byte) : (s.movePins v).inHead = s.inHead := rfl
@[simp] theorem State.movePins_rPort (v : Byte) : (s.movePins v).rPort = s.rPort := rfl
@[simp] theorem State.movePins_rTlo (v : Byte) : (s.movePins v).rTlo = s.rTlo := rfl
@[simp] theorem State.movePins_rThi (v : Byte) : (s.movePins v).rThi = s.rThi := rfl
@[simp] theorem State.movePins_hph (v : Byte) : (s.movePins v).hph = s.hph := rfl
@[simp] theorem State.movePins_hkind (v : Byte) : (s.movePins v).hkind = s.hkind := rfl
@[simp] theorem State.movePins_mph (v : Byte) : (s.movePins v).mph = s.mph := rfl
@[simp] theorem State.movePins_inTail (v : Byte) : (s.movePins v).inTail = s.inTail := rfl
@[simp] theorem State.movePins_mNe (v : Byte) : (s.movePins v).mNe = s.mNe := rfl
@[simp] theorem State.movePins_mRec (v : Byte) : (s.movePins v).mRec = s.mRec := rfl
@[simp] theorem State.movePins_quota (v : Byte) : (s.movePins v).quota = s.quota := rfl
@[simp] theorem State.movePins_outHead (v : Byte) : (s.movePins v).outHead = s.outHead := rfl
@[simp] theorem State.movePins_outTail (v : Byte) : (s.movePins v).outTail = s.outTail := rfl
@[simp] theorem State.movePins_lineCnt (v : Byte) : (s.movePins v).lineCnt = s.lineCnt := rfl
@[simp] theorem State.movePins_txbuf (v : Byte) : (s.movePins v).txbuf = s.txbuf := rfl
@[simp] theorem State.movePins_cur (v : Byte) : (s.movePins v).cur = s.cur := rfl
@[simp] theorem State.movePins_mem (v : Byte) : (s.movePins v).mem = s.mem := rfl
@[simp] theorem State.movePins_txLog (v : Byte) : (s.movePins v).txLog = s.txLog := rfl
@[simp] theorem State.movePins_svcCnt (v : Byte) : (s.movePins v).svcCnt = s.svcCnt := rfl
@[simp] theorem State.movePins_evLog (v : Byte) : (s.movePins v).evLog = s.evLog := rfl
@[simp] theorem State.movePins_cfg (v : Byte) : (s.movePins v).cfg = s.cfg := rfl
@[simp] theorem State.movePins_script (v : Byte) : (s.movePins v).script = s.script := rfl
@[simp] theorem State.movePins_draws (v : Byte) : (s.movePins v).draws = s.draws := rfl
@[simp] theorem State.movePins_memDraw (v : Byte) : (s.movePins v).memDraw = s.memDraw := rfl
@[simp] theorem State.movePins_waited (v : Byte) : (s.movePins v).waited = s.waited := rfl

@[simp] theorem State.countDraw_pin (i : Instr) : (s.countDraw i).pin = s.pin := rfl
@[simp] theorem State.countDraw_tcnt (i : Instr) : (s.countDraw i).tcnt = s.tcnt := rfl
@[simp] theorem State.countDraw_eif (i : Instr) : (s.countDraw i).eif = s.eif := rfl
@[simp] theorem State.countDraw_tovf (i : Instr) : (s.countDraw i).tovf = s.tovf := rfl
@[simp] theorem State.countDraw_ie (i : Instr) : (s.countDraw i).ie = s.ie := rfl
@[simp] theorem State.countDraw_inHead (i : Instr) : (s.countDraw i).inHead = s.inHead := rfl
@[simp] theorem State.countDraw_rPort (i : Instr) : (s.countDraw i).rPort = s.rPort := rfl
@[simp] theorem State.countDraw_rTlo (i : Instr) : (s.countDraw i).rTlo = s.rTlo := rfl
@[simp] theorem State.countDraw_rThi (i : Instr) : (s.countDraw i).rThi = s.rThi := rfl
@[simp] theorem State.countDraw_hph (i : Instr) : (s.countDraw i).hph = s.hph := rfl
@[simp] theorem State.countDraw_hkind (i : Instr) : (s.countDraw i).hkind = s.hkind := rfl
@[simp] theorem State.countDraw_mph (i : Instr) : (s.countDraw i).mph = s.mph := rfl
@[simp] theorem State.countDraw_inTail (i : Instr) : (s.countDraw i).inTail = s.inTail := rfl
@[simp] theorem State.countDraw_mNe (i : Instr) : (s.countDraw i).mNe = s.mNe := rfl
@[simp] theorem State.countDraw_mRec (i : Instr) : (s.countDraw i).mRec = s.mRec := rfl
@[simp] theorem State.countDraw_quota (i : Instr) : (s.countDraw i).quota = s.quota := rfl
@[simp] theorem State.countDraw_outHead (i : Instr) : (s.countDraw i).outHead = s.outHead := rfl
@[simp] theorem State.countDraw_outTail (i : Instr) : (s.countDraw i).outTail = s.outTail := rfl
@[simp] theorem State.countDraw_lineCnt (i : Instr) : (s.countDraw i).lineCnt = s.lineCnt := rfl
@[simp] theorem State.countDraw_txbuf (i : Instr) : (s.countDraw i).txbuf = s.txbuf := rfl
@[simp] theorem State.countDraw_cur (i : Instr) : (s.countDraw i).cur = s.cur := rfl
@[simp] theorem State.countDraw_mem (i : Instr) : (s.countDraw i).mem = s.mem := rfl
@[simp] theorem State.countDraw_txLog (i : Instr) : (s.countDraw i).txLog = s.txLog := rfl
@[simp] theorem State.countDraw_svcCnt (i : Instr) : (s.countDraw i).svcCnt = s.svcCnt := rfl
@[simp] theorem State.countDraw_evLog (i : Instr) : (s.countDraw i).evLog = s.evLog := rfl
@[simp] theorem State.countDraw_cfg (i : Instr) : (s.countDraw i).cfg = s.cfg := rfl
@[simp] theorem State.countDraw_script (i : Instr) : (s.countDraw i).script = s.script := rfl
@[simp] theorem State.countDraw_draws (i : Instr) : (s.countDraw i).draws = s.draws + 1 := rfl
@[simp] theorem State.countDraw_memDraw (i : Instr) : (s.countDraw i).memDraw = s.memDraw := rfl
@[simp] theorem State.countDraw_waited (i : Instr) : (s.countDraw i).waited = if (captureEnabled s).isEmpty || i.agent == .isr then 0 else s.waited + 1 := rfl

@[simp] theorem State.tick_pin : (s.tick).pin = s.pin := rfl
@[simp] theorem State.tick_tcnt : (s.tick).tcnt = s.tcnt + 1 := rfl
@[simp] theorem State.tick_eif : (s.tick).eif = s.eif := rfl
@[simp] theorem State.tick_tovf : (s.tick).tovf = tickFlag (s.tcnt + 1) s.tovf := rfl
@[simp] theorem State.tick_ie : (s.tick).ie = s.ie := rfl
@[simp] theorem State.tick_inHead : (s.tick).inHead = s.inHead := rfl
@[simp] theorem State.tick_rPort : (s.tick).rPort = s.rPort := rfl
@[simp] theorem State.tick_rTlo : (s.tick).rTlo = s.rTlo := rfl
@[simp] theorem State.tick_rThi : (s.tick).rThi = s.rThi := rfl
@[simp] theorem State.tick_hph : (s.tick).hph = s.hph := rfl
@[simp] theorem State.tick_hkind : (s.tick).hkind = s.hkind := rfl
@[simp] theorem State.tick_mph : (s.tick).mph = s.mph := rfl
@[simp] theorem State.tick_inTail : (s.tick).inTail = s.inTail := rfl
@[simp] theorem State.tick_mNe : (s.tick).mNe = s.mNe := rfl
@[simp] theorem State.tick_mRec : (s.tick).mRec = s.mRec := rfl
@[simp] theorem State.tick_quota : (s.tick).quota = s.quota := rfl
@[simp] theorem State.tick_outHead : (s.tick).outHead = s.outHead := rfl
@[simp] theorem State.tick_outTail : (s.tick).outTail = s.outTail := rfl
@[simp] theorem State.tick_lineCnt : (s.tick).lineCnt = s.lineCnt := rfl
@[simp] theorem State.tick_txbuf : (s.tick).txbuf = s.txbuf := rfl
@[simp] theorem State.tick_cur : (s.tick).cur = s.cur := rfl
@[simp] theorem State.tick_mem : (s.tick).mem = s.mem := rfl
@[simp] theorem State.tick_txLog : (s.tick).txLog = s.txLog := rfl
@[simp] theorem State.tick_svcCnt : (s.tick).svcCnt = s.svcCnt := rfl
@[simp] theorem State.tick_evLog : (s.tick).evLog = s.evLog := rfl
@[simp] theorem State.tick_cfg : (s.tick).cfg = s.cfg := rfl
@[simp] theorem State.tick_script : (s.tick).script = s.script := rfl
@[simp] theorem State.tick_draws : (s.tick).draws = s.draws := rfl
@[simp] theorem State.tick_memDraw : (s.tick).memDraw = s.memDraw := rfl
@[simp] theorem State.tick_waited : (s.tick).waited = s.waited := rfl

@[simp] theorem State.initialize_pin : s.initialize.pin = s.pin := rfl
@[simp] theorem State.initialize_eif : s.initialize.eif = 0 := rfl
@[simp] theorem State.initialize_tovf : s.initialize.tovf = false := rfl
@[simp] theorem State.initialize_ie : s.initialize.ie = true := rfl
@[simp] theorem State.initialize_inHead : s.initialize.inHead = 0 := rfl
@[simp] theorem State.initialize_hph : s.initialize.hph = hIdle := rfl
@[simp] theorem State.initialize_mph : s.initialize.mph = mChk := rfl
@[simp] theorem State.initialize_inTail : s.initialize.inTail = 0 := rfl
@[simp] theorem State.initialize_mNe : s.initialize.mNe = false := rfl
@[simp] theorem State.initialize_quota : s.initialize.quota = s.cfg.tickQuotaMax := rfl
@[simp] theorem State.initialize_outHead : s.initialize.outHead = 0 := rfl
@[simp] theorem State.initialize_outTail : s.initialize.outTail = 0 := rfl
@[simp] theorem State.initialize_lineCnt : s.initialize.lineCnt = 0 := rfl
@[simp] theorem State.initialize_cur : s.initialize.cur = 0 := rfl
@[simp] theorem State.initialize_mem : s.initialize.mem = [] := rfl
@[simp] theorem State.initialize_txLog : s.initialize.txLog = [] := rfl
@[simp] theorem State.initialize_svcCnt : s.initialize.svcCnt = 0 := rfl
@[simp] theorem State.initialize_evLog : s.initialize.evLog = [] := rfl
@[simp] theorem State.initialize_cfg : s.initialize.cfg = s.cfg := rfl
@[simp] theorem State.initialize_script : s.initialize.script = s.script := rfl
@[simp] theorem State.initialize_draws : s.initialize.draws = s.draws + 1 := rfl
@[simp] theorem State.initialize_memDraw : s.initialize.memDraw = s.draws := rfl
@[simp] theorem State.initialize_waited : s.initialize.waited = s.waited := rfl

/-- The first text byte after INIT is the marker (10_state.md R43). -/
@[simp] theorem State.initialize_txbuf_zero : s.initialize.txbuf[0] = termByte := rfl

/-- Ticks change only the timer count and its flag. -/
theorem State.ticks_frame (n : Nat) :
    State.ticks n s = { s with tcnt := (State.ticks n s).tcnt, tovf := (State.ticks n s).tovf } := by
  induction n generalizing s with
  | zero => rfl
  | succ n ih => rw [State.ticks, ih s.tick]; rfl

end Sys2Proof.Machine
end

