-- ==== Sys2Proof/Laws/Exec.lean ====
section
/-! SUPPORT. Everything each shared operation and each meaning can do: if it answers a next state, which one
and under which conditions; and what a step can be. Later proofs cite these instead of unfolding. -/

namespace Sys2Proof.Machine

variable {s t : State}

@[simp] theorem whenEnabled_eq_next {i : Instr} {k : Result} :
    whenEnabled i s k = .next t ↔ enabled i s = true ∧ k = .next t := by
  unfold whenEnabled
  split <;> simp_all

@[simp] theorem whenEnabled_eq_fault {i : Instr} {k : Result} {f : Fault} :
    whenEnabled i s k = .fault f ↔ enabled i s = true ∧ k = .fault f := by
  unfold whenEnabled
  split <;> simp_all

/-- A step that is not enabled is refused. -/
theorem whenEnabled_of_not {i : Instr} {k : Result} (h : enabled i s = false) :
    whenEnabled i s k = .refused (if s.ie then .notEnabled else .notStarted) := by
  simp [whenEnabled, h]

@[simp] theorem withInSlot_eq_next {i : BitVec 8} {k : Result} :
    withInSlot i s k = .next t ↔ i.toNat < s.cfg.inSlots ∧ k = .next t := by
  unfold withInSlot
  split <;> simp_all

@[simp] theorem withOutSlot_eq_next {i : Half} {k : Result} :
    withOutSlot i s k = .next t ↔ i.toNat < s.cfg.outSlots ∧ k = .next t := by
  unfold withOutSlot
  split <;> simp_all

@[simp] theorem withInSlot_eq_fault {i : BitVec 8} {k : Result} {f : Fault} :
    withInSlot i s k = .fault f ↔
      (i.toNat < s.cfg.inSlots ∧ k = .fault f) ∨ (s.cfg.inSlots ≤ i.toNat ∧ f = .noSuchSlot) := by
  unfold withInSlot
  split
  · next h => simp [h]
  · next h => simp [h, Nat.le_of_not_lt h, eq_comm]

@[simp] theorem withOutSlot_eq_fault {i : Half} {k : Result} {f : Fault} :
    withOutSlot i s k = .fault f ↔
      (i.toNat < s.cfg.outSlots ∧ k = .fault f) ∨ (s.cfg.outSlots ≤ i.toNat ∧ f = .noSuchSlot) := by
  unfold withOutSlot
  split
  · next h => simp [h]
  · next h => simp [h, Nat.le_of_not_lt h, eq_comm]

@[simp] theorem andThen_eq_next {r : Result} {k : State → State} :
    andThen r k = .next t ↔ ∃ u, r = .next u ∧ t = k u := by
  cases r <;> simp [andThen, eq_comm]

@[simp] theorem andThen_eq_fault {r : Result} {k : State → State} {f : Fault} :
    andThen r k = .fault f ↔ r = .fault f := by
  cases r <;> simp [andThen]

@[simp] theorem andThen_next {k : State → State} : andThen (.next s) k = .next (k s) := rfl

/-- The fields of a checked push: only memory, the write index and the labels can change. -/
theorem State.forward_cases (l : Label) (r : Record) (s : State) :
    (s.outFull = false ∧ s.forward l r = s.putOut r) ∨ (s.outFull = true ∧ s.forward l r = s.emitEv l) := by
  unfold State.forward State.pushOut
  cases h : s.outFull <;> simp

/-- What an edge record does in DR.FWD. -/
theorem execFwdEdge_next {a b c d : Byte} :
    execFwdEdge a b c d s = .next t ↔ s.outHead.toNat < s.cfg.outSlots ∧
      (s.forward .outDropEdge ⟨a, b, c, d⟩).setQuota s.cfg.tickQuotaMax = t := by
  simp [execFwdEdge]

/-- What a tick record does in DR.FWD. -/
theorem execFwdTick_next {a b c : Byte} :
    execFwdTick a b c s = .next t ↔ (s.quota = 0 ∧ s.emitEv .tickThrottled = t) ∨
      (s.quota ≠ 0 ∧ s.outHead.toNat < s.cfg.outSlots ∧
        (s.forward .outDropTick ⟨a, b, c, tickMark⟩).setQuota (s.quota - 1) = t) := by
  unfold execFwdTick
  split <;> simp_all

/-- What INIT does. -/
theorem execInit_next : execInit s = .next t ↔ s.initialize = t := by simp [execInit, enabled]

/-- What PIN does. -/
theorem execPin_next {v : Byte} : execPin v s = .next t ↔ s.ie = true ∧ s.movePins v = t := by
  simp [execPin, enabled]

/-- What TMR does. -/
theorem execTmr_next {n : Byte} :
    execTmr n s = .next t ↔ enabled (.tmr n) s = true ∧ State.ticks n.toNat s = t := by simp [execTmr]

/-- What ENTER.E does. -/
theorem execEnterE_next : execEnterE s = .next t ↔
    enabled .enterE s = true ∧ State.enterHandler true { s with eif := 0 } = t := by simp [execEnterE]

/-- What ENTER.T does. -/
theorem execEnterT_next : execEnterT s = .next t ↔
    enabled .enterT s = true ∧ State.enterHandler false { s with tovf := false } = t := by simp [execEnterT]

/-- What RDPORT does. -/
theorem execRdport_next : execRdport s = .next t ↔
    enabled .rdport s = true ∧ State.setHph hTlo { s with rPort := s.pin } = t := by simp [execRdport]

/-- What RDTLO does. -/
theorem execRdtlo_next : execRdtlo s = .next t ↔
    enabled .rdtlo s = true ∧ State.setHph hThi { s with rTlo := tcntLow s.tcnt } = t := by simp [execRdtlo]

/-- What RDTHI does. -/
theorem execRdthi_next : execRdthi s = .next t ↔
    enabled .rdthi s = true ∧ State.setHph hCommit { s with rThi := tcntHigh s.tcnt } = t := by
  simp [execRdthi]

/-- What COMMIT does. -/
theorem execCommit_next : execCommit s = .next t ↔ enabled .commit s = true ∧
    s.inHead.toNat < s.cfg.inSlots ∧ (s.noteOverrun.pushIn s.captured).returnFromHandler = t := by
  simp [execCommit]

/-- What DR.CHK does. -/
theorem execDrChk_next : execDrChk s = .next t ↔ enabled .drChk s = true ∧
    State.setMph mRd0 { s with mNe := !ringEmpty s.inHead.toNat s.inTail.toNat } = t := by simp [execDrChk]

/-- What DR.RD does. -/
theorem execDrRd_next {k : BitVec 2} : execDrRd k s = .next t ↔ enabled (.drRd k) s = true ∧
    ((s.mNe = true ∧ s.inTail.toNat < s.cfg.inSlots ∧ State.setMph (s.mph + 1)
        { s with mRec := s.mRec.setByte k (s.readByte (inSlotAddr s.cfg s.inTail.toNat + k.toNat)) } = t) ∨
      (s.mNe = false ∧ s.setMph (s.mph + 1) = t)) := by
  cases h : s.mNe <;> simp [execDrRd, h]

/-- What DR.FWD does. -/
theorem execDrFwd_next : execDrFwd s = .next t ↔ enabled .drFwd s = true ∧
    ((s.mNe = true ∧ ∃ u, applyPolicy s.mRec s.advanceInTail = .next u ∧ u.setMph mFmt = t) ∨
      (s.mNe = false ∧ s.setMph mFmt = t)) := by
  have comm : ∀ u : State, t = u.setMph mFmt ↔ u.setMph mFmt = t := fun _ => eq_comm
  cases h : s.mNe <;> simp [execDrFwd, h, comm]

/-- What FORMAT does. -/
theorem execFormat_next : execFormat s = .next t ↔ enabled .format s = true ∧ ∃ b, s.curByte = some b ∧
    ((b = termByte ∧ ∃ r u, s.popOut = some (r, u) ∧ s.outTail.toNat < s.cfg.outSlots ∧
        (u.render r).setMph mTx = t) ∨
      ((b = termByte → s.popOut = none) ∧ s.setMph mTx = t)) := by
  unfold execFormat
  cases hb : s.curByte with
  | none => simp
  | some b =>
    by_cases ht : b = termByte
    · cases hp : s.popOut with
      | none => simp [ht]
      | some x => obtain ⟨r, u⟩ := x; simp [ht]
    · simp [ht]

/-- What TX does. -/
theorem execTx_next {r : Bool} : execTx r s = .next t ↔ enabled (.tx r) s = true ∧
    ∃ b, s.curByte = some b ∧ ((b = termByte ∧ s.setMph mSvc = t) ∨
      (b ≠ termByte ∧ r = true ∧ (s.emitTx b).setMph mSvc = t) ∨
      (b ≠ termByte ∧ r = false ∧ (s.emitEv .txStall).setMph mSvc = t)) := by
  unfold execTx
  cases hb : s.curByte with
  | none => simp
  | some b => by_cases ht : b = termByte <;> cases r <;> simp [ht]

/-- What SERVICE does. -/
theorem execService_next : execService s = .next t ↔
    enabled .service s = true ∧ s.emitSvc.setMph mChk = t := by simp [execService]

/-- The operation a step performs is fetched from the script or drawn, and the fetch changes nothing but
the script, or the count of the draws and of the wait. -/
theorem fetch_cases {i : Instr} {u : State} (h : fetch s = .ok (i, u)) :
    (∃ w rest, s.script = w :: rest ∧ decodeStep w = .ok i ∧ u = { s with script := rest }) ∨
      (s.script = [] ∧ i = drawnStep s ∧ u = s.countDraw i) := by
  unfold fetch at h
  split at h
  · next w rest hs =>
    split at h
    · next j hj =>
      obtain ⟨rfl, rfl⟩ : j = i ∧ { s with script := rest } = u := by simpa using h
      exact .inl ⟨w, rest, hs, hj, rfl⟩
    · simp at h
  · next hs =>
    obtain ⟨rfl, rfl⟩ : drawnStep s = i ∧ s.countDraw (drawnStep s) = u := by simpa using h
    exact .inr ⟨hs, rfl, rfl⟩

/-- A step is one operation performed on the state the fetch leaves. -/
theorem step_next : step s = .next t ↔ ∃ i u, fetch s = .ok (i, u) ∧ exec i u = .next t := by
  unfold step
  cases h : fetch s with
  | error r => simp
  | ok x => obtain ⟨i, u⟩ := x; simp

/-- The capture unit's operations are those of agent ISR (10_state.md R4, 30_encoding.md R110). -/
@[simp] theorem mem_captureSteps {i : Instr} : i ∈ captureSteps ↔ i.agent = .isr := by
  cases i <;> simp [captureSteps, Instr.agent]

/-- A capture operation can be taken exactly when it is one and enabled. -/
@[simp] theorem mem_captureEnabled {i : Instr} {s : State} :
    i ∈ captureEnabled s ↔ i.agent = .isr ∧ enabled i s = true := by
  simp [captureEnabled]

/-- There is always a step to choose: INIT, or the capture operation that is due. -/
theorem candidates_length_pos (s : State) : 0 < (candidates s).length := by
  unfold candidates
  split
  · next h => exact List.length_pos_iff.2 (by simpa using (Bool.and_eq_true_iff.1 h).1)
  · exact List.length_pos_of_mem (a := .init) (by simp [enabledSteps, allSteps, enabled])

/-- The drawn step is one of those it is chosen from. -/
theorem drawnStep_mem (s : State) : drawnStep s ∈ candidates s := by
  have hlt := Nat.mod_lt (Config.freeChoice s.draws) (candidates_length_pos s)
  simp only [drawnStep, List.getD_eq_getElem?_getD, List.getElem?_eq_getElem hlt, Option.getD_some]
  exact List.getElem_mem hlt

/-- The drawn step is enabled. -/
theorem drawnStep_enabled (s : State) : enabled (drawnStep s) s = true := by
  have h := drawnStep_mem s
  unfold candidates at h
  split at h
  · exact (mem_captureEnabled.1 h).2
  · exact (List.mem_filter.1 h).2

/-- Once a capture operation is due, the drawn step is one (60_exceptions.md R220). -/
theorem drawnStep_of_captureDue {s : State} (h : captureDue s = true) : (drawnStep s).agent = .isr := by
  have hm := drawnStep_mem s
  rw [candidates, if_pos h] at hm
  exact (mem_captureEnabled.1 hm).1

/-- What a draw leaves of the wait: it ends when no capture operation is enabled or one is taken, and else
is one step longer. -/
theorem State.countDraw_waited_cases (i : Instr) (s : State) :
    ((captureEnabled s = [] ∨ i.agent = .isr) ∧ (s.countDraw i).waited = 0) ∨
      (captureEnabled s ≠ [] ∧ i.agent ≠ .isr ∧ (s.countDraw i).waited = s.waited + 1) := by
  by_cases h1 : captureEnabled s = [] <;> by_cases h2 : i.agent = .isr <;> simp [h1, h2]

/-- The phases of the capture unit are different values (10_state.md R30). -/
theorem handlerPhases_distinct : [hIdle, hPort, hTlo, hThi, hCommit].Pairwise (· ≠ ·) := by decide

/-- Some capture operation is enabled exactly when an interrupt can be taken, of whichever class IRQ_PRIO
lets go first, or a handler runs (R30, 60_exceptions.md R215, R216). -/
theorem captureEnabled_ne_nil {s : State} : captureEnabled s ≠ [] ↔ s.ie = true ∧
    ((s.hph = hIdle ∧ (s.eif ≠ 0 ∨ s.tovf = true)) ∨ s.hph = hPort ∨ s.hph = hTlo ∨ s.hph = hThi ∨
      s.hph = hCommit) := by
  have intro : ∀ i : Instr, i.agent = .isr → enabled i s = true → captureEnabled s ≠ [] :=
    fun i ha he => List.ne_nil_of_mem (mem_captureEnabled.2 ⟨ha, he⟩)
  constructor
  · intro h
    obtain ⟨i, hi⟩ := List.exists_mem_of_ne_nil _ h
    obtain ⟨ha, he⟩ := mem_captureEnabled.1 hi
    cases i <;> simp [Instr.agent] at ha <;> simp [enabled, handlerAt] at he <;> tauto
  · rintro ⟨hie, ⟨hp, hf⟩ | hp | hp | hp | hp⟩
    · by_cases he : enabled .enterE s = true
      · exact intro .enterE rfl he
      · refine intro .enterT rfl ?_
        simp only [enabled, hie, hp] at he ⊢
        by_cases h0 : s.eif = 0#4 <;> simp_all
    · exact intro .rdport rfl (by simp [enabled, handlerAt, hie, hp])
    · exact intro .rdtlo rfl (by simp [enabled, handlerAt, hie, hp])
    · exact intro .rdthi rfl (by simp [enabled, handlerAt, hie, hp])
    · exact intro .commit rfl (by simp [enabled, handlerAt, hie, hp])

/-- An edge flag that is set stays set when others are set (44_startup_and_environment.md R197). -/
theorem eif_or_ne_zero {a b : BitVec 4} (h : a ≠ 0) : a ||| b ≠ 0 := by
  revert a b
  decide

/-- The fields a forward leaves (41_drain_rate_limiter.md R154, R155): the flags, the handler's phase, IE. -/
theorem State.forward_frame (l : Label) (r : Record) (s : State) :
    (s.forward l r).hph = s.hph ∧ (s.forward l r).ie = s.ie ∧ (s.forward l r).eif = s.eif ∧
      (s.forward l r).tovf = s.tovf ∧ (s.forward l r).draws = s.draws ∧ (s.forward l r).waited = s.waited := by
  rcases State.forward_cases l r s with ⟨_, h⟩ | ⟨_, h⟩ <;> simp [h]

/-- A timer flag that is set stays set through ticks (44_startup_and_environment.md R198). -/
theorem State.ticks_tovf (n : Nat) {s : State} (h : s.tovf = true) : (State.ticks n s).tovf = true := by
  induction n generalizing s with
  | zero => exact h
  | succ n ih => exact ih (by simp [tickFlag, h])

/-- The code numbers tell the labels apart (60_exceptions.md R211). -/
theorem Label.code_injective {a b : Label} (h : a.code = b.code) : a = b := by
  cases a <;> cases b <;> first | rfl | simp [Label.code] at h

end Sys2Proof.Machine
end

