-- ==== Sys2Proof/Laws/Memory.lean ====
section
/-! SUPPORT. Memory: a read after a write, and the canonical form that every write keeps. -/

namespace Sys2Proof.Machine

/-- A byte reads as it was written last. -/
@[simp] theorem Memory.byteAt_put_same (m : Memory) (a : Nat) (v : Byte) :
    (m.put a v).byteAt a = some v := by
  induction m with
  | nil => simp [put, byteAt]
  | cons c m ih =>
    obtain ⟨k, b⟩ := c
    simp only [put]
    split
    · simp [byteAt]
    · split
      · simp [byteAt]
      · rename_i h
        simp [byteAt, Ne.symm h, ih]

/-- A write leaves every other byte as it was. -/
theorem Memory.byteAt_put_other (m : Memory) {a a' : Nat} (v : Byte) (h : a' ≠ a) :
    (m.put a v).byteAt a' = m.byteAt a' := by
  induction m with
  | nil => simp [put, byteAt, h.symm]
  | cons c m ih =>
    obtain ⟨k, b⟩ := c
    simp only [put]
    split
    · simp [byteAt, h.symm]
    · split
      · next hk => subst hk; simp [byteAt, h.symm]
      · simp [byteAt, ih]

/-- The addresses listed after a write are those listed before and the one written. -/
theorem Memory.mem_put {m : Memory} {a : Nat} {v : Byte} {c : Host.Cell} (h : c ∈ m.put a v) :
    c.1 = a ∨ c ∈ m := by
  induction m with
  | nil => simp only [put, List.mem_singleton] at h; simp [h]
  | cons d m ih =>
    obtain ⟨k, b⟩ := d
    simp only [put] at h
    split at h
    · rcases List.mem_cons.1 h with h | h
      · simp [h]
      · exact .inr h
    · split at h
      · rcases List.mem_cons.1 h with h | h
        · simp [h]
        · exact .inr (List.mem_cons_of_mem _ h)
      · rcases List.mem_cons.1 h with h | h
        · simp [h]
        · exact (ih h).imp_right (List.mem_cons_of_mem _)

/-- A write keeps the canonical form. -/
theorem Memory.put_wf {m : Memory} (a : Nat) (v : Byte) (h : m.wf) : (m.put a v).wf := by
  induction m with
  | nil => simp [put]
  | cons c m ih =>
    obtain ⟨k, b⟩ := c
    obtain ⟨hk, hm⟩ := List.pairwise_cons.1 h
    simp only [put]
    split
    · next hlt =>
      refine List.pairwise_cons.2 ⟨fun d hd => ?_, h⟩
      rcases List.mem_cons.1 hd with rfl | hd
      · exact hlt
      · exact hlt.trans (hk d hd)
    · split
      · next heq => subst heq; exact List.pairwise_cons.2 ⟨hk, hm⟩
      · next hlt hne =>
        refine List.pairwise_cons.2 ⟨fun d hd => ?_, ih hm⟩
        rcases mem_put hd with hd | hd
        · show k < d.1
          omega
        · exact hk d hd

/-- A record write keeps the canonical form. -/
theorem Memory.putRecord_wf {m : Memory} (a : Nat) (r : Record) (h : m.wf) : (m.putRecord a r).wf :=
  put_wf _ _ (put_wf _ _ (put_wf _ _ (put_wf _ _ h)))

/-- A record write leaves every byte outside its four as it was. -/
theorem Memory.byteAt_putRecord_other (m : Memory) {a x : Nat} (r : Record) (h : x < a ∨ a + 4 ≤ x) :
    (m.putRecord a r).byteAt x = m.byteAt x := by
  simp only [putRecord]
  rw [byteAt_put_other _ _ (by omega), byteAt_put_other _ _ (by omega), byteAt_put_other _ _ (by omega),
    byteAt_put_other _ _ (by omega)]

/-- The four bytes of a record write (20_memory.md R62). -/
theorem Memory.byteAt_putRecord (m : Memory) (a : Nat) (r : Record) :
    (m.putRecord a r).byteAt a = some r.tsLo ∧ (m.putRecord a r).byteAt (a + 1) = some r.tsHi ∧
      (m.putRecord a r).byteAt (a + 2) = some r.port ∧ (m.putRecord a r).byteAt (a + 3) = some r.kind := by
  simp [putRecord, byteAt_put_other]

/-- A byte that is listed stays listed. -/
theorem Memory.byteAt_put_isSome (m : Memory) (a x : Nat) (v : Byte) (h : (m.byteAt x).isSome) :
    ((m.put a v).byteAt x).isSome := by
  by_cases hx : x = a
  · simp [hx]
  · rwa [byteAt_put_other _ _ hx]

end Sys2Proof.Machine
end

