-- ==== Sys2Proof/Laws/PerInstr.lean ====
section
/-! SUPPORT. Laws of every instruction as syntax, one lemma per constructor. Family EncodedLength: a record
class is four bytes, every step word two (30_encoding.md R100). -/

namespace Sys2Proof.Laws.EncodedLength

/-- The number of bytes of an operation's word. -/
def Statement (i : Instr) : Prop := (encode i).bytes.length = if i.isStep then 2 else 4

theorem init : Statement .init := rfl

theorem pin (v : Byte) : Statement (.pin v) := rfl

theorem tmr (n : Byte) : Statement (.tmr n) := rfl

theorem enterE : Statement .enterE := rfl

theorem enterT : Statement .enterT := rfl

theorem rdport : Statement .rdport := rfl

theorem rdtlo : Statement .rdtlo := rfl

theorem rdthi : Statement .rdthi := rfl

theorem commit : Statement .commit := rfl

theorem drChk : Statement .drChk := rfl

theorem drRd (k : BitVec 2) : Statement (.drRd k) := rfl

theorem drFwd : Statement .drFwd := rfl

theorem format : Statement .format := rfl

theorem tx (r : Bool) : Statement (.tx r) := rfl

theorem service : Statement .service := rfl

theorem fwdTick (tsLo tsHi port : Byte) : Statement (.fwdTick tsLo tsHi port) := rfl

theorem fwdEdge (tsLo tsHi port kind : Byte) : Statement (.fwdEdge tsLo tsHi port kind) := rfl

end Sys2Proof.Laws.EncodedLength
end

