-- ==== Sys2Proof/Tests/Slice0.lean ====
section
/-! SUPPORT. The model's own tests. Words are written from 30_encoding.md R110 and V17; expected results are
those of 95_test_vectors.md, whose vector each comment names. Then a witness for the hypotheses of every
statement that has some. -/

namespace Sys2Proof.Tests

open Sys2Proof Sys2Proof.Machine

/-! ### WellFormed: an ill-formed term for each check -/

theorem test_wellFormed_refuses_tmr_zero : (Instr.tmr 0).wellFormed = false := by decide
theorem test_wellFormed_refuses_edge_with_zero_kind : (Instr.fwdEdge 1 2 3 0).wellFormed = false := by decide
theorem test_config_refuses_quad_with_five_pins :
    ¬ ({ defaultConfig with topology := .edgeQuad, monMask := 0x1F } : Config).wf := by decide
theorem test_config_refuses_no_monitored_pin : ¬ ({ defaultConfig with monMask := 0 } : Config).wf := by decide
theorem test_config_refuses_in_slots_not_power_of_two :
    ¬ ({ defaultConfig with inSlots := 48 } : Config).wf := by decide
theorem test_config_refuses_one_out_slot : ¬ ({ defaultConfig with outSlots := 1 } : Config).wf := by decide
theorem test_config_refuses_empty_line : ¬ ({ defaultConfig with tokensPerLine := 0 } : Config).wf := by decide
theorem test_config_refuses_unaligned_ring : ¬ ({ defaultConfig with inBase := 0x104 } : Config).wf := by decide
theorem test_config_refuses_overlap : ¬ ({ defaultConfig with outBase := 0x210 } : Config).wf := by decide
theorem test_config_refuses_pulse_in_octa :
    ¬ ({ defaultConfig with resetPulseEn := true } : Config).wf := by decide

/-! ### Decoding: a word of every row, low byte first (V17; grp, sub, arg of R107) -/

theorem test_decode_init : decode [0b00000000, 0b00010000] = .ok .init := by decide
theorem test_decode_pin : decode [0b10100101, 0b00100000] = .ok (.pin 0xA5) := by decide
theorem test_decode_tmr : decode [0b11111111, 0b00100001] = .ok (.tmr 255) := by decide
theorem test_decode_enterE : decode [0b00000000, 0b00110000] = .ok .enterE := by decide
theorem test_decode_enterT : decode [0b00000000, 0b00110001] = .ok .enterT := by decide
theorem test_decode_rdport : decode [0b00000000, 0b00110010] = .ok .rdport := by decide
theorem test_decode_rdtlo : decode [0b00000000, 0b00110011] = .ok .rdtlo := by decide
theorem test_decode_rdthi : decode [0b00000000, 0b00110100] = .ok .rdthi := by decide
theorem test_decode_commit : decode [0b00000000, 0b00110101] = .ok .commit := by decide
theorem test_decode_drChk : decode [0b00000000, 0b01000000] = .ok .drChk := by decide
theorem test_decode_drRd : decode [0b00000010, 0b01000001] = .ok (.drRd 2) := by decide
theorem test_decode_drFwd : decode [0b00000000, 0b01000010] = .ok .drFwd := by decide
theorem test_decode_format : decode [0b00000000, 0b01000011] = .ok .format := by decide
theorem test_decode_tx : decode [0b00000001, 0b01000100] = .ok (.tx true) := by decide
theorem test_decode_service : decode [0b00000000, 0b01000101] = .ok .service := by decide
/-- `rec32 = 0x00AA1234`. -/
theorem test_decode_fwdTick : decode [0x34, 0x12, 0xAA, 0x00] = .ok (.fwdTick 0x34 0x12 0xAA) := by decide
/-- `rec32 = 0x80DEBC9A`. -/
theorem test_decode_fwdEdge : decode [0x9A, 0xBC, 0xDE, 0x80] = .ok (.fwdEdge 0x9A 0xBC 0xDE 0x80) := by decide
/-- The reserved words of V17, each with its reason. -/
theorem test_decode_reserved :
    [0x0000#16, 0xFFFF#16, 0x5000#16].map decodeStep = List.replicate 3 (.error .group) ∧
    [0x1100#16, 0x2200#16, 0x3600#16, 0x4600#16].map decodeStep = List.replicate 4 (.error .subOperation) ∧
    [0x1001#16, 0x2100#16, 0x3001#16, 0x4001#16, 0x4104#16, 0x4402#16, 0x4501#16].map decodeStep =
      List.replicate 7 (.error .operand) ∧ decode [0x00] = .error .length := by decide

/-! ### Operations -/

/-- A property of the next state of an outcome. -/
def nextHas (r : Result) (p : State → Bool) : Bool :=
  match r with
  | .next t => p t
  | .fault _ => false
  | .refused _ => false

/-- Whether an outcome is this refusal. -/
def refusedAs (r : Result) (x : Refusal) : Bool :=
  match r with
  | .next _ => false
  | .fault _ => false
  | .refused y => decide (x = y)

/-- The state after reset with MAIN at phase `p`. -/
abbrev mainState (p : BitVec 4) : State := { State.reset with mph := p }

/-- The state after reset with a handler at phase `p`. -/
abbrev handlerState (p : BitVec 3) : State := { State.reset with hph := p }

/-- The text "1234AA0 " of V14. -/
abbrev text : Vector Byte 9 := #v[0x31, 0x32, 0x33, 0x34, 0x41, 0x41, 0x30, 0x20, 0x00]

/-- The default configuration in EDGE_QUAD with a mask. -/
abbrev quad (mask : Byte) : Config := { defaultConfig with topology := .edgeQuad, monMask := mask }

/-- Four slots in the input ring, as in V12. -/
abbrev small : Config := { defaultConfig with inSlots := 4, outSlots := 4 }

/-- V15 row 1. -/
theorem test_init_from_the_middle :
    nextHas (exec .init { State.reset with
        hph := hThi, eif := 1, tovf := true, inHead := 9, inTail := 4, mph := 3, mNe := true, quota := 0,
        outHead := 3, outTail := 1, lineCnt := 7, cur := 4, txbuf := text, txLog := [1, 2], pin := 0x5A,
        ie := false })
      (fun t => t.hph == 0 && t.eif == 0 && !t.tovf && t.ie && t.inHead == 0 && t.inTail == 0 && t.mph == 0 &&
        !t.mNe && t.quota == 2 && t.outHead == 0 && t.outTail == 0 && t.lineCnt == 0 && t.cur == 0 &&
        t.txbuf[0] == 0 && t.txLog == [] && t.pin == 0x5A) = true := by decide

/-- V10 row 3. -/
theorem test_pin_quad_third_pin : nextHas (exec (.pin 0x20) { State.reset with cfg := quad 0xA5 })
    (fun t => t.pin == 0x20 && t.eif == 0b0100) = true := by decide

/-- V10 row 5. -/
theorem test_pin_octa_falling : nextHas (exec (.pin 0x00) { State.reset with pin := 0x80, eif := 1 })
    (fun t => t.pin == 0x00 && t.eif == 0b0001) = true := by decide

/-- V10 row 7. -/
theorem test_tmr_wraps : nextHas (exec (.tmr 2) { State.reset with tcnt := 0xFFFE })
    (fun t => t.tcnt == 0 && t.tovf) = true := by decide

/-- V10 row 10. -/
theorem test_tmr_carry_is_no_overflow : nextHas (exec (.tmr 1) { State.reset with tcnt := 0x00FF })
    (fun t => t.tcnt == 0x0100 && !t.tovf) = true := by decide

/-- V9 row 5. -/
theorem test_enterE_clears_all_flags : nextHas (exec .enterE { State.reset with cfg := quad 0x0F, eif := 0b0011 })
    (fun t => t.eif == 0 && t.hkind && t.hph == hPort) = true := by decide

/-- V9 row 8. -/
theorem test_enterE_needs_a_flag : refusedAs (exec .enterE State.reset) .notEnabled = true := by decide

/-- V9 row 6. -/
theorem test_enterT_leaves_edge_flags : nextHas (exec .enterT { State.reset with eif := 1, tovf := true, hkind := true })
    (fun t => t.eif == 1 && !t.tovf && !t.hkind && t.hph == hPort) = true := by decide

/-- V9 row 7. -/
theorem test_enterT_edge_first : refusedAs (exec .enterT { State.reset with
    eif := 1, tovf := true, cfg := { defaultConfig with irqPrio := .edgeFirst } }) .notEnabled = true := by decide

/-- R133's example. -/
theorem test_rdport : nextHas (exec .rdport { handlerState hPort with pin := 0xAA })
    (fun t => t.rPort == 0xAA && t.hph == hTlo) = true := by decide

/-- R134's example. -/
theorem test_rdtlo : nextHas (exec .rdtlo { handlerState hTlo with tcnt := 0x1234 })
    (fun t => t.rTlo == 0x34 && t.hph == hThi) = true := by decide

/-- R135's example. -/
theorem test_rdthi : nextHas (exec .rdthi { handlerState hThi with tcnt := 0x1234 })
    (fun t => t.rThi == 0x12 && t.hph == hCommit) = true := by decide

/-- V9 row 3: slot 63 at 0x100 + 4*63, the index wraps, no label. -/
theorem test_commit_wraps : nextHas (exec .commit { handlerState hCommit with
      inHead := 63, inTail := 10, rTlo := 0xFF, rThi := 0xFF, rPort := 1, hkind := true })
    (fun t => t.readRecord 0x1FC == ⟨0xFF, 0xFF, 1, 1⟩ && t.inHead == 0 && t.evLog == [] && t.hph == hIdle) = true := by
  decide

/-- V12, EDGE 4: the overrun. -/
theorem test_commit_overrun : nextHas (exec .commit { handlerState hCommit with
      cfg := small, inHead := 3, inTail := 0, rTlo := 0x13, rPort := 4, hkind := true })
    (fun t => t.readRecord 0x10C == ⟨0x13, 0, 4, 1⟩ && t.inHead == 0 && t.inTail == 0 &&
      t.evLog == [.inOverrun]) = true := by decide

/-- R151's example. -/
theorem test_drChk_not_empty : nextHas (exec .drChk { mainState mChk with inHead := 3, inTail := 1 })
    (fun t => t.mNe && t.mph == mRd0) = true := by decide

/-- V3: after an overrun the ring reads as empty. -/
theorem test_drChk_empty : nextHas (exec .drChk { mainState mChk with inHead := 2, inTail := 2, mNe := true })
    (fun t => !t.mNe) = true := by decide

/-- R152's example. -/
theorem test_drRd_byte_two : nextHas (exec (.drRd 2) { mainState 3 with
      mNe := true, inTail := 1, mem := [(0x104, 0x34), (0x105, 0x12), (0x106, 0xAA), (0x107, 0x01)] })
    (fun t => t.mRec == ⟨0, 0, 0xAA, 0⟩ && t.mph == 4) = true := by decide

/-- R152: with `M_NE = 0` nothing is read. -/
theorem test_drRd_nothing : nextHas (exec (.drRd 3) { mainState 4 with mRec := ⟨1, 2, 3, 4⟩ })
    (fun t => t.mRec == ⟨1, 2, 3, 4⟩ && t.mph == mFwd) = true := by decide

/-- V11 row 5: marker 0xFF is an edge and is kept. -/
theorem test_drFwd_marker : nextHas (exec .drFwd { mainState mFwd with
      mNe := true, inHead := 1, mRec := ⟨0x10, 0x20, 0x30, 0xFF⟩, quota := 1 })
    (fun t => t.inTail == 1 && t.readRecord 0x220 == ⟨0x10, 0x20, 0x30, 0xFF⟩ && t.outHead == 1 &&
      t.quota == 2 && t.mph == mFmt) = true := by decide

/-- V11 row 7: a tick meets a full output ring. -/
theorem test_drFwd_tick_full : nextHas (exec .drFwd { mainState mFwd with
      cfg := small, mNe := true, inHead := 1, outTail := 1, mRec := ⟨1, 2, 3, 0⟩ })
    (fun t => t.inTail == 1 && t.outHead == 0 && t.mem == [] && t.quota == 1 && t.evLog == [.outDropTick]) = true := by
  decide

/-- V11 row 6, the policy alone. -/
theorem test_fwdEdge_full : nextHas (exec (.fwdEdge 1 2 3 1) { State.reset with cfg := small, outTail := 1, quota := 0 })
    (fun t => t.quota == 2 && t.outHead == 0 && t.mem == [] && t.evLog == [.outDropEdge]) = true := by decide

/-- V2: the third push of four slots goes to slot 2. -/
theorem test_fwdEdge_third_push : nextHas (exec (.fwdEdge 1 2 3 1) { State.reset with cfg := small, outHead := 2 })
    (fun t => t.outHead == 3 && t.readRecord 0x228 == ⟨1, 2, 3, 1⟩) = true := by decide

/-- V11 row 3. -/
theorem test_fwdTick_forwarded : nextHas (exec (.fwdTick 0 0 0x55) { State.reset with quota := 1 })
    (fun t => t.outHead == 1 && t.readRecord 0x220 == ⟨0, 0, 0x55, 0⟩ && t.quota == 0) = true := by decide

/-- V11 row 4. -/
theorem test_fwdTick_throttled : nextHas (exec (.fwdTick 0 0 0x55) { State.reset with quota := 0 })
    (fun t => t.outHead == 0 && t.mem == [] && t.quota == 0 && t.evLog == [.tickThrottled]) = true := by decide

/-- V13 row 3. -/
theorem test_format_ninth : nextHas (exec .format { mainState mFmt with
      lineCnt := 9, outHead := 1, mem := [(0x220, 0x9A), (0x221, 0xBC), (0x222, 0xDE), (0x223, 0x80)] })
    (fun t => t.txbuf == #v[0x42, 0x43, 0x39, 0x41, 0x44, 0x45, 0x30, 0x0A, 0x00] && t.lineCnt == 0 &&
      t.cur == 0 && t.outTail == 1 && t.mph == mTx) = true := by decide

/-- V13 row 7. -/
theorem test_format_text_pending : nextHas (exec .format { mainState mFmt with
      txbuf := text, cur := 3, outHead := 2 })
    (fun t => t.txbuf == text && t.cur == 3 && t.outTail == 0 && t.mph == mTx) = true := by decide

/-- V14 row 3. -/
theorem test_tx_last_byte : nextHas (exec (.tx true) { mainState mTx with txbuf := text, cur := 7 })
    (fun t => t.txLog == [0x20] && t.cur == 8 && t.mph == mSvc) = true := by decide

/-- V14 row 2. -/
theorem test_tx_stall : nextHas (exec (.tx false) { mainState mTx with txbuf := text })
    (fun t => t.txLog == [] && t.cur == 0 && t.evLog == [.txStall] && t.mph == mSvc) = true := by decide

/-- V14 row 7. -/
theorem test_service : nextHas (exec .service { mainState mSvc with svcCnt := 4 })
    (fun t => t.svcCnt == 5 && t.mph == mChk) = true := by decide

/-- R240: before INIT. -/
theorem test_not_started : refusedAs (exec (.pin 1) { State.reset with ie := false }) .notStarted = true := by decide

/-! ### The step and the script -/

theorem test_step_takes_the_first_word :
    nextHas (step { State.reset with script := [0x20AA, 0x2101] }) (fun t => t.pin == 0xAA && t.script == [0x2101]) = true := by
  decide

theorem test_step_refuses_reserved_word :
    refusedAs (step { State.reset with script := [0x4104] }) (.reservedWord 0x4104) = true := by decide

/-- The record 0x01AA1234 is run by DR.FWD (R112). -/
theorem test_placed_record_runs : nextHas (step (State.reset.withFetchWord 32 0x01AA1234))
    (fun t => t.readRecord 0x220 == ⟨0x34, 0x12, 0xAA, 0x01⟩ && t.outHead == 1 && t.mph == mFmt) = true := by decide

/-- The beginning of P1 (R113, R114). -/
theorem test_parse_script :
    parseScript "TMR 1   # TCNT = 1234\nPIN 0xAA\n\nCAP.EDGE" =
      some [.tmr 1, .pin 0xAA, .enterE, .rdport, .rdtlo, .rdthi, .commit] := by decide

/-- R113: hexadecimal digits by R108's table, in either case (log entry 16). -/
theorem test_digit_values : "09AFafG".toList.map digitValue =
    [some 0, some 9, some 10, some 15, some 10, some 15, none] := by decide

theorem test_parse_refuses_operand : parseScript "DR.RD 4" = none := by decide

/-! ### Witnesses for the hypotheses of the statements -/

theorem witness_DecodeOfEncode : (Instr.tmr 255).wellFormed = true ∧ (Instr.fwdEdge 0 0 0 0x80).wellFormed = true := by
  decide

theorem witness_OnlyTableWordsDecode :
    (Instr.drRd 3).isStep ∧ (Instr.drRd 3).wellFormed = true ∧ encode (.drRd 3) = .step 0x4103 ∧
    ({ State.reset with script := [0x0000] } : State).script = [0x0000] := by decide

/-- No operation has the word 0x0000: its group is 0. -/
theorem witness_OnlyTableWordsDecode_reserved (i : Instr) : encode i ≠ .step 0x0000 := by
  intro h
  have hg : ∀ (g s : BitVec 4) (a : Byte), stepWord g s a = .step 0 → g = 0 := by
    intro g s a hw
    have hw' : g ++ s ++ a = 0 := by simpa [stepWord] using hw
    refine BitVec.eq_of_getLsbD_eq fun j hj => ?_
    have := congrArg (fun x : Half => x.getLsbD (12 + j)) hw'
    simp only [BitVec.getLsbD_append] at this
    have h1 : ¬ (12 + j < 8) := by omega
    have h2 : ¬ (12 + j - 8 < 4) := by omega
    have h3 : 12 + j - 8 - 4 = j := by omega
    simpa [h1, h2, h3] using this
  cases i <;> first | exact absurd (hg _ _ _ h) (by decide) | simp [encode] at h

theorem witness_RecordDispatch :
    (0x00FFFFFF#32).extractLsb' 24 8 = 0 ∧ (0x01000000#32).extractLsb' 24 8 ≠ 0 ∧
    (let s : State := { mainState mFwd with mNe := true }
     s.mainReady mFwd ∧ s.mNe = true) := by decide

theorem witness_HexDigitCharacters : (9#4).toNat ≤ 9 ∧ 10 ≤ (10#4).toNat ∧ (7 : Fin 9).val < 8 := by decide

theorem witness_PseudoOperations : State.reset.ie = true ∧ 1 ≤ 1 ∧ 1 ≤ 65535 ∧ 65535 ≤ 65535 := by decide

theorem witness_StepRunsDecodedWord :
    ({ State.reset with script := [0x21FF] } : State).script = 0x21FF :: [] ∧ decodeStep 0x21FF = .ok (.tmr 255) ∧
      decodeStep 0x2100 = .error .operand := by decide

theorem witness_StepWithoutScriptIsEnabled : State.reset.script = [] := rfl

theorem witness_PlacedWordRuns : (Instr.tmr 1).isStep ∧ (Instr.tmr 1).wellFormed = true ∧
    encode (.tmr 1) = .step 0x2101 := by decide

theorem witness_RunsExactlyWhenEnabled : State.reset.Inv ∧ Instr.drChk.isStep ∧ enabled .commit State.reset = false := by
  decide

theorem witness_OpcodeMapAndEnabling : (0xFF : Byte) ≠ 0 := by decide

theorem witness_OnlyInitBeforeStart : ({ State.reset with ie := false } : State).ie = false ∧
    (Instr.pin 0).isStep ∧ Instr.pin 0 ≠ .init := by decide

theorem witness_PinSetsEdgeFlags : State.reset.cfg.wf ∧ State.reset.ie = true ∧ (quad 0x0F).wf ∧
    (quad 0x0F).topology = .edgeQuad ∧ defaultConfig.topology = .changeOcta ∧
    ¬ ({ State.reset with ie := false } : State).ie = true := by decide

theorem witness_TimerTicks : State.reset.ie = true ∧ (255 : Byte) ≠ 0 ∧
    ¬ (State.reset.ie = true ∧ (0 : Byte) ≠ 0) := by decide

/-- A pending edge flag with both classes pending, and the two priorities. -/
theorem witness_EnterEdgeHandler :
    (let s : State := { State.reset with eif := 8, tovf := true }
     s.ie = true ∧ s.hph = hIdle ∧ s.eif ≠ 0 ∧ (s.cfg.irqPrio = .tickFirst → s.tovf = false)) ∧
    State.reset.eif = 0 := by decide

theorem witness_EnterTimerHandler :
    (let s : State := { State.reset with eif := 8, tovf := true }
     s.ie = true ∧ s.hph = hIdle ∧ s.tovf = true ∧ (s.cfg.irqPrio = .edgeFirst → s.eif = 0)) ∧
    State.reset.tovf = false := by decide

theorem witness_HandlerReads : (handlerState hPort).handlerReady hPort ∧ (handlerState hTlo).handlerReady hTlo ∧
    (handlerState hThi).handlerReady hThi ∧ ¬ State.reset.handlerReady hPort ∧ ¬ State.reset.handlerReady hTlo ∧
    ¬ State.reset.handlerReady hThi := by decide

theorem witness_CommitPushesRecord :
    (let s : State := { handlerState hCommit with inHead := 63 }
     s.handlerReady hCommit ∧ s.cfg.wf ∧ s.inHead.toNat < s.cfg.inSlots) ∧
    ¬ State.reset.handlerReady hCommit := by decide

theorem witness_WholeHandlerInvocation :
    let s : State := { State.reset with eif := 1, tovf := true, inHead := 63 }
    s.Inv ∧ s.ie = true ∧ s.hph = hIdle ∧ enabled .enterE s = true ∧ enabled .enterT s = true := by decide

theorem witness_TimestampSkew : (handlerState hTlo).handlerReady hTlo ∧ (255 : Byte) ≠ 0 := by decide

theorem witness_PinChangesCoalesce :
    let s : State := State.reset
    s.ie = true ∧ s.hph = hIdle ∧ (s.cfg.irqPrio = .tickFirst → s.tovf = false) ∧
      ((s.movePins 1).movePins 3).eif ≠ 0 ∧ (s.movePins 1).eif ≠ 0 := by decide

theorem witness_HandlerExcludesMainAndEntry :
    (handlerState hCommit).hph ≠ hIdle ∧ Instr.drChk.agent = .main := by decide

theorem witness_HandlerIsFiveSteps :
    nextHas (exec .commit (handlerState hCommit)) (fun t => t.hph == hIdle) = true ∧ Instr.commit.agent = .isr ∧
    nextHas (exec .service (mainState mSvc)) (fun t => t.hph == hIdle) = true ∧ Instr.service.agent ≠ .isr ∧
      Instr.service ≠ .init := by decide

theorem witness_DrainCheck : State.reset.mainReady mChk ∧ ¬ (handlerState hPort).mainReady mChk := by decide

theorem witness_DrainReadByte :
    (let s : State := { mainState 4 with inTail := 63, mNe := true }
     s.ie = true ∧ s.hph = hIdle ∧ s.mph.toNat = 1 + (3#2).toNat ∧ s.inTail.toNat < s.cfg.inSlots ∧ s.mNe = true) ∧
    (mainState 1).mph.toNat = 1 + (0#2).toNat ∧ (mainState 1).mNe = false ∧
    ¬ (State.reset.ie = true ∧ State.reset.hph = hIdle ∧ State.reset.mph.toNat = 1 + (0#2).toNat) := by decide

theorem witness_DrainForward :
    (let s : State := { mainState mFwd with mNe := true, outHead := 15, inTail := 63 }
     s.mainReady mFwd ∧ s.mNe = true ∧ s.cfg.wf ∧ s.outHead.toNat < s.cfg.outSlots) ∧
    (mainState mFwd).mainReady mFwd ∧ (mainState mFwd).mNe = false ∧ ¬ State.reset.mainReady mFwd := by decide

theorem witness_EdgeRecordPolicy :
    (let s : State := { State.reset with outHead := 15 }
     s.cfg.wf ∧ s.outHead.toNat < s.cfg.outSlots ∧ (s.outHead.toNat + 1) % s.cfg.outSlots = s.outTail.toNat) ∧
    (let s : State := { State.reset with outHead := 14 }
     s.cfg.wf ∧ s.outHead.toNat < s.cfg.outSlots ∧ (s.outHead.toNat + 1) % s.cfg.outSlots ≠ s.outTail.toNat) := by
  decide

theorem witness_TickRecordPolicy :
    (let s : State := { State.reset with quota := 0, outHead := 15 }
     s.cfg.wf ∧ s.outHead.toNat < s.cfg.outSlots ∧ s.quota = 0) ∧
    (let s : State := { State.reset with quota := 1, outHead := 15 }
     s.cfg.wf ∧ s.outHead.toNat < s.cfg.outSlots ∧ s.quota ≠ 0 ∧
       (s.outHead.toNat + 1) % s.cfg.outSlots = s.outTail.toNat) ∧
    (let s : State := { State.reset with quota := 1, outHead := 14 }
     s.cfg.wf ∧ s.outHead.toNat < s.cfg.outSlots ∧ s.quota ≠ 0 ∧
       (s.outHead.toNat + 1) % s.cfg.outSlots ≠ s.outTail.toNat) := by decide

theorem witness_ThrottleForwardsQuotaTicks :
    State.reset.Inv ∧ (∀ r ∈ [(⟨1, 0, 1, 0⟩ : Record), ⟨2, 0, 1, 0⟩, ⟨3, 0, 1, 0⟩], r.kind = 0x00) ∧
      State.reset.outQueue.length + 3 < State.reset.cfg.outSlots := by decide

theorem witness_WholeDrainStep : State.reset.Inv ∧ State.reset.mainReady mChk ∧ State.reset.inHead = State.reset.inTail ∧
    (let s : State := { State.reset with inTail := 63 }
     s.Inv ∧ s.mainReady mChk ∧ s.inHead ≠ s.inTail) := by
  and_intros <;> decide

theorem witness_FormatRenders :
    (let s : State := { mainState mFmt with outHead := 1 }
     s.mainReady mFmt ∧ s.txbuf[s.cur.toNat]? = some termByte ∧ s.outHead ≠ s.outTail ∧ s.cfg.wf ∧
       s.outTail.toNat < s.cfg.outSlots) ∧
    (let s : State := { mainState mFmt with txbuf := text, cur := 7, outHead := 1 }
     s.mainReady mFmt ∧ s.txbuf[s.cur.toNat]? = some 0x20) ∧
    (let s : State := { mainState mFmt with txbuf := text, cur := 8 }
     s.mainReady mFmt ∧ s.txbuf[s.cur.toNat]? = some 0x00 ∧ s.outHead = s.outTail) ∧
    ¬ State.reset.mainReady mFmt := by decide

theorem witness_LineBreakEveryNth : 1 ≤ (1 : Byte).toNat := by decide

theorem witness_TransmitAtMostOneByte :
    (let s : State := { mainState mTx with txbuf := text, cur := 7 }
     s.mainReady mTx ∧ s.txbuf[s.cur.toNat]? = some 0x20 ∧ (0x20 : Byte) ≠ termByte) ∧
    (let s : State := { mainState mTx with txbuf := text, cur := 8 }
     s.mainReady mTx ∧ s.txbuf[s.cur.toNat]? = some termByte) ∧ ¬ State.reset.mainReady mTx := by decide

theorem witness_ServiceStrobe : (mainState mSvc).mainReady mSvc ∧ ¬ State.reset.mainReady mSvc := by decide

theorem witness_TextSentInEightIterations :
    let s : State := { State.reset with txbuf := tokenText ⟨0x34, 0x12, 0xAA, 1⟩ sepSpace }
    s.Inv ∧ s.mainReady mChk ∧ s.inHead = s.inTail ∧ s.txbuf = tokenText ⟨0x34, 0x12, 0xAA, 1⟩ sepSpace ∧
      sepSpace ≠ termByte ∧ s.cur = 0 := by decide

theorem witness_OutputRingPrimitives :
    State.reset.Inv ∧ (State.reset.pushOut ⟨1, 2, 3, 4⟩).isSome = true ∧
    (let s : State := { State.reset with outHead := 0, outTail := 15 }
     s.Inv ∧ s.popOut.isSome = true) ∧
    (let s : State := { State.reset with outHead := 15, outTail := 0 }
     s.Inv ∧ (s.pushOut ⟨1, 2, 3, 4⟩).isNone = true) := by
  and_intros <;> decide

theorem witness_InputPushUnconditional :
    let s : State := { State.reset with inHead := 63 }
    s.cfg.wf ∧ s.inFull = true := by decide

theorem witness_OutputRingIsFifo :
    (let s : State := { mainState mFmt with outHead := 0, outTail := 15 }
     s.Inv ∧ s.mainReady mFmt ∧ s.curByte = some termByte ∧ s.outHead ≠ s.outTail) ∧
    ({ State.reset with outHead := 15 } : State).outFull = true ∧ (⟨0, 0, 0, 1⟩ : Record).kind ≠ 0x00 ∧
    nextHas (exec .commit (handlerState hCommit)) (fun _ => true) = true := by decide

theorem witness_InputRingIsFifoUntilOverrun :
    (let s : State := { handlerState hCommit with inHead := 63 }
     s.Inv ∧ s.handlerReady hCommit ∧ s.inFull = true) ∧
    (let s : State := { handlerState hCommit with inHead := 62 }
     s.Inv ∧ s.handlerReady hCommit ∧ s.inFull = false) ∧
    (let s : State := { mainState mFwd with inTail := 63, mNe := true }
     s.Inv ∧ s.mainReady mFwd ∧ s.mNe = true ∧ s.inHead ≠ s.inTail) := by
  and_intros <;> decide

theorem witness_InitEstablishesInvariant :
    ({ State.reset with ie := false, hph := 7, cur := 15 } : State).cfg.wf ∧
      nextHas (exec .init { State.reset with ie := false, hph := 7, cur := 15 }) (fun _ => true) = true := by decide

theorem witness_StepKeepsInvariant :
    let s : State := { State.reset with script := [0x4000] }
    s.Inv ∧ nextHas (step s) (fun t => t.mph == mRd0) = true := by decide

theorem witness_NoStepFaults : State.reset.Inv ∧ Reaches State.reset State.reset := ⟨by decide, .refl _⟩

theorem witness_RingReadsAreWritten :
    (let s : State := { State.reset with script := [0x4000] }
     s.Inv ∧ s.ringsWritten ∧ nextHas (step s) (fun t => t.mph == mRd0) = true) ∧
    (let s : State := { mainState 4 with
        mNe := true, inHead := 0, inTail := 63, outHead := 0, outTail := 15
        mem := [(0x1FC, 1), (0x1FD, 2), (0x1FE, 3), (0x1FF, 0), (0x25C, 1), (0x25D, 2), (0x25E, 3), (0x25F, 1)] }
     s.Inv ∧ s.ringsWritten ∧ enabled (.drRd 3) s = true ∧ s.mNe = true ∧ s.outHead ≠ s.outTail) := by
  and_intros <;> decide

theorem witness_WriterExclusivity :
    (handlerState hCommit).Inv ∧ nextHas (exec .commit (handlerState hCommit)) (fun _ => true) = true ∧
      Instr.commit.agent = .isr ∧ (mainState mSvc).Inv ∧
      nextHas (exec .service (mainState mSvc)) (fun _ => true) = true ∧ Instr.service.agent = .main ∧
      nextHas (exec (.pin 1) State.reset) (fun _ => true) = true ∧ (Instr.pin 1).agent = .env := by
  and_intros <;> decide

theorem witness_InterruptsStayEnabled :
    nextHas (step { State.reset with script := [0x1000], ie := false }) (fun t => t.ie) = true ∧
    nextHas (exec .init State.reset) (fun t => t.ie) = true ∧ ({ State.reset with ie := false } : State).ie = false ∧
    nextHas (exec .drChk State.reset) (fun t => t.ie) = true ∧ Instr.drChk ≠ .init := by decide

/-- A capture operation, and two states that differ in QUOTA and in the first byte of the output ring. -/
theorem witness_CaptureIgnoresMainState :
    let s : State := handlerState hCommit
    let m : State := { s with quota := 1, mem := [(0x220, 7)] }
    Instr.commit.agent = .isr ∧ s.sameForCapture m ∧ m ≠ s := by
  refine ⟨rfl, ⟨rfl, fun x hx => ?_⟩, by decide⟩
  have h : ¬ 0x220 = x := by
    rintro rfl
    revert hx
    decide
  simp [State.readByte, Memory.byteAt, h, State.reset]

theorem witness_MainNeverStuck : (mainState mSvc).Inv ∧ (mainState mSvc).ie = true ∧ (mainState mSvc).hph = hIdle := by
  decide

theorem witness_EnvironmentCommutesWithMain :
    Instr.drFwd.agent = .main ∧ (Instr.tmr 255).agent = .env ∧ (Instr.tmr 255).wellFormed = true := by decide

/-- DR.RD of slot 62 while the handler writes slot 63, and DR.FWD. -/
theorem witness_HandlerCommutesWithMain :
    (let s : State := { mainState 1 with mNe := true, inTail := 62, inHead := 63, eif := 1 }
     s.Inv ∧ Instr.agent (.drRd 0) = .main ∧ enabled (.drRd 0) s = true ∧ enabled .enterE s = true ∧
       Instr.drRd 0 ≠ .drChk ∧ s.mNe = true ∧ s.inHead ≠ s.inTail) ∧
    (let s : State := { mainState mFwd with mNe := true, inTail := 62, inHead := 63, tovf := true }
     s.Inv ∧ Instr.drFwd.agent = .main ∧ enabled .drFwd s = true ∧ enabled .enterT s = true ∧
       Instr.drFwd ≠ .drChk) := by
  and_intros <;> decide

theorem witness_OutOfRangeAccessFaults :
    (let s : State := { handlerState hCommit with inHead := 64 }
     s.handlerReady hCommit ∧ s.cfg.inSlots ≤ s.inHead.toNat) ∧
    (let s : State := { mainState 1 with inTail := 64, mNe := true }
     enabled (.drRd 0) s = true ∧ s.mNe = true ∧ s.cfg.inSlots ≤ s.inTail.toNat) ∧
    (let s : State := { State.reset with outHead := 16 }
     s.cfg.outSlots ≤ s.outHead.toNat ∧ s.quota ≠ 0) ∧
    (let s : State := { mainState mFmt with outTail := 16 }
     s.mainReady mFmt ∧ s.curByte = some termByte ∧ s.outHead ≠ s.outTail ∧ s.cfg.outSlots ≤ s.outTail.toNat) ∧
    (let s : State := { mainState mFmt with cur := 9 }
     s.mainReady mFmt ∧ 9 ≤ s.cur.toNat) ∧
    (let s : State := { mainState mTx with cur := 9 }
     s.mainReady mTx ∧ 9 ≤ s.cur.toNat) := by decide

/-- A step under each of the five conditions. -/
theorem witness_LossLabels :
    nextHas (exec .commit { handlerState hCommit with inHead := 63 }) (fun t => t.evLog == [.inOverrun]) = true ∧
    nextHas (exec .drFwd { mainState mFwd with mNe := true, outHead := 15, mRec := ⟨1, 2, 3, 4⟩ })
      (fun t => t.evLog == [.outDropEdge]) = true ∧
    nextHas (exec .drFwd { mainState mFwd with mNe := true, outHead := 15 }) (fun t => t.evLog == [.outDropTick]) = true ∧
    nextHas (exec .drFwd { mainState mFwd with mNe := true, quota := 0 }) (fun t => t.evLog == [.tickThrottled]) = true ∧
    nextHas (exec (.tx false) { mainState mTx with txbuf := text }) (fun t => t.evLog == [.txStall]) = true ∧
    (Instr.tx false).isStep ∧ Instr.tx false ≠ .init := by decide

theorem witness_OperationsKeepSchedule :
    nextHas (exec .service { mainState mSvc with script := [0x4000] }) (fun t => t.script == [0x4000]) = true ∧
    Instr.service ≠ .init := by decide

theorem witness_FreeRunIsWeaklyFair :
    (let s : State := { State.reset with eif := 1 }
     s.Inv ∧ s.script = [] ∧ enabled .enterE s = true) ∧ Instr.enterE.agent = .isr := by decide

theorem witness_FreeRunServesHandlers :
    (let s : State := { State.reset with tovf := true }
     s.Inv ∧ s.script = [] ∧ enabled .enterT s = true) ∧
    (handlerState hPort).Inv ∧ (handlerState hPort).script = [] ∧ (handlerState hPort).hph ≠ hIdle := by
  and_intros <;> decide

end Sys2Proof.Tests
end

section
/-! SUPPORT and the statements of 10_state.md R26 and R42: which items of the state each agent's operations can
change (R20, R42), and that every step is an enabled operation, so that interrupts are enabled where it is taken. -/

namespace Sys2Proof.Machine

variable {s t u : State} {i : Instr}

/-- What a byte reads as depends on memory and on the draw behind unwritten bytes only (log entry 5). -/
theorem State.readByte_congr (hmem : t.mem = s.mem) (hdraw : t.memDraw = s.memDraw) (a : Nat) :
    t.readByte a = s.readByte a := by
  simp [readByte, hmem, hdraw]

/-! ### What MAIN changes: `State.sameForCapture` -/

/-- An update of MAIN's registers and the ghost items that leaves memory alone. -/
theorem State.sameForCapture_of_mem_eq (hf : t = { s.withMainOf t with evLog := t.evLog }) :
    s.sameForCapture t := by
  have hmem : t.mem = s.mem := (congrArg State.mem hf :)
  have hdraw : t.memDraw = s.memDraw := (congrArg State.memDraw hf :)
  exact ⟨hf.trans (by rw [hmem]; rfl), fun x _ => readByte_congr hmem hdraw x⟩

theorem State.sameForCapture_trans (h₁ : s.sameForCapture t) (h₂ : t.sameForCapture u) :
    s.sameForCapture u := by
  obtain ⟨hf₁, hm₁⟩ := h₁
  obtain ⟨hf₂, hm₂⟩ := h₂
  have hcfg : t.cfg = s.cfg := (congrArg State.cfg hf₁ :)
  refine ⟨hf₂.trans (by rw [hf₁]; rfl), fun x hx => ?_⟩
  rw [hm₂ x (by rwa [hcfg]), hm₁ x hx]

/-- A push into a slot of the output ring writes nothing outside its storage (20_memory.md R61, R71). -/
theorem State.sameForCapture_putOut (r : Record) (h : s.outHead.toNat < s.cfg.outSlots) :
    s.sameForCapture (s.putOut r) := by
  refine ⟨rfl, fun x hx => ?_⟩
  have hslot : x < outSlotAddr s.cfg s.outHead.toNat ∨ outSlotAddr s.cfg s.outHead.toNat + 4 ≤ x := by
    unfold outSlotAddr
    omega
  simp [readByte, Memory.byteAt_putRecord_other _ r hslot]

theorem State.sameForCapture_forward (l : Label) (r : Record) (h : s.outHead.toNat < s.cfg.outSlots) :
    s.sameForCapture (s.forward l r) := by
  obtain ⟨_, heq⟩ | ⟨_, heq⟩ := State.forward_cases l r s
  · exact heq ▸ State.sameForCapture_putOut r h
  · exact heq ▸ State.sameForCapture_of_mem_eq rfl

theorem State.sameForCapture_setQuota (q : BitVec 8) : s.sameForCapture (s.setQuota q) :=
  State.sameForCapture_of_mem_eq rfl

theorem execFwdEdge_sameForCapture {a b c d : Byte} (h : execFwdEdge a b c d s = .next t) :
    s.sameForCapture t := by
  obtain ⟨hslot, rfl⟩ := execFwdEdge_next.1 h
  exact State.sameForCapture_trans (State.sameForCapture_forward _ _ hslot) (State.sameForCapture_setQuota _)

theorem execFwdTick_sameForCapture {a b c : Byte} (h : execFwdTick a b c s = .next t) :
    s.sameForCapture t := by
  obtain ⟨_, rfl⟩ | ⟨_, hslot, rfl⟩ := execFwdTick_next.1 h
  · exact State.sameForCapture_of_mem_eq rfl
  · exact State.sameForCapture_trans (State.sameForCapture_forward _ _ hslot) (State.sameForCapture_setQuota _)

theorem applyPolicy_sameForCapture {r : Record} (h : applyPolicy r s = .next t) : s.sameForCapture t := by
  unfold applyPolicy at h
  split at h
  · exact execFwdTick_sameForCapture h
  · exact execFwdEdge_sameForCapture h

theorem execDrFwd_sameForCapture (h : execDrFwd s = .next t) : s.sameForCapture t := by
  obtain ⟨_, ⟨_, u, hu, rfl⟩ | ⟨_, rfl⟩⟩ := execDrFwd_next.1 h
  · have hpop : s.sameForCapture s.advanceInTail := State.sameForCapture_of_mem_eq rfl
    have hend : u.sameForCapture (u.setMph mFmt) := State.sameForCapture_of_mem_eq rfl
    exact State.sameForCapture_trans hpop (State.sameForCapture_trans (applyPolicy_sameForCapture hu) hend)
  · exact State.sameForCapture_of_mem_eq rfl

/-- A pop of the output ring moves its read index only (20_memory.md R73). -/
theorem State.popOut_eq_some {r : Record} (h : s.popOut = some (r, u)) :
    u = { s with outTail := nextIndex s.cfg.outSlots s.outTail } := by
  unfold State.popOut at h
  split at h
  · cases h
  · cases h
    rfl

theorem execFormat_sameForCapture (h : execFormat s = .next t) : s.sameForCapture t := by
  obtain ⟨_, _, _, ⟨_, r, u, hpop, _, rfl⟩ | ⟨_, rfl⟩⟩ := execFormat_next.1 h
  · obtain rfl := State.popOut_eq_some hpop
    exact State.sameForCapture_of_mem_eq rfl
  · exact State.sameForCapture_of_mem_eq rfl

/-- A MAIN operation, or a record class inside one, changes items of MAIN only (10_state.md R20, R42). -/
theorem exec_main_sameForCapture (ha : i.agent = .main ∨ i.agent = .mainPolicy) (h : exec i s = .next t) :
    s.sameForCapture t := by
  cases i with
  | drChk =>
    obtain ⟨_, rfl⟩ := execDrChk_next.1 h
    exact State.sameForCapture_of_mem_eq rfl
  | drRd k =>
    obtain ⟨_, ⟨_, _, rfl⟩ | ⟨_, rfl⟩⟩ := execDrRd_next.1 h <;> exact State.sameForCapture_of_mem_eq rfl
  | drFwd => exact execDrFwd_sameForCapture h
  | format => exact execFormat_sameForCapture h
  | tx r =>
    obtain ⟨_, _, _, ⟨_, rfl⟩ | ⟨_, _, rfl⟩ | ⟨_, _, rfl⟩⟩ := execTx_next.1 h <;>
      exact State.sameForCapture_of_mem_eq rfl
  | service =>
    obtain ⟨_, rfl⟩ := execService_next.1 h
    exact State.sameForCapture_of_mem_eq rfl
  | fwdTick a b c => exact execFwdTick_sameForCapture h
  | fwdEdge a b c d => exact execFwdEdge_sameForCapture h
  | init | pin | tmr | enterE | enterT | rdport | rdtlo | rdthi | commit => simp [Instr.agent] at ha

/-! ### What the capture unit changes -/

/-- `s` with every register the capture unit owns, and the flags it clears, taken from `m` (R20, R42). The input
ring's storage stays: `sameOutsideCapture` is about it. -/
def State.withCaptureOf (s m : State) : State :=
  { s with
    eif := m.eif, tovf := m.tovf, inHead := m.inHead, rPort := m.rPort, rTlo := m.rTlo, rThi := m.rThi
    hph := m.hph, hkind := m.hkind }

/-- `s` and `m` differ at most in items the capture unit owns (R20), the bytes of the input ring included, in the
flags, and in the labels: the counterpart of `sameForCapture`. -/
def State.sameOutsideCapture (s m : State) : Prop :=
  m = { s.withCaptureOf m with mem := m.mem, evLog := m.evLog } ∧
    ∀ x, x < s.cfg.inBase ∨ s.cfg.inBase + 4 * s.cfg.inSlots ≤ x → m.readByte x = s.readByte x

theorem State.sameOutsideCapture_of_mem_eq (hf : t = s.withCaptureOf t) : s.sameOutsideCapture t := by
  have hmem : t.mem = s.mem := (congrArg State.mem hf :)
  have hdraw : t.memDraw = s.memDraw := (congrArg State.memDraw hf :)
  have hlog : t.evLog = s.evLog := (congrArg State.evLog hf :)
  exact ⟨hf.trans (by rw [hmem, hlog]; rfl), fun x _ => readByte_congr hmem hdraw x⟩

/-- The ghost test of COMMIT can add a label and changes nothing else. -/
theorem State.noteOverrun_frame (s : State) : s.noteOverrun = { s with evLog := s.noteOverrun.evLog } := by
  unfold State.noteOverrun
  split <;> rfl

/-- COMMIT writes a slot of the input ring and no byte outside its storage (20_memory.md R61, R72). -/
theorem execCommit_sameOutsideCapture (h : execCommit s = .next t) : s.sameOutsideCapture t := by
  obtain ⟨_, hslot, rfl⟩ := execCommit_next.1 h
  rw [State.noteOverrun_frame]
  refine ⟨rfl, fun x hx => ?_⟩
  have hout : x < inSlotAddr s.cfg s.inHead.toNat ∨ inSlotAddr s.cfg s.inHead.toNat + 4 ≤ x := by
    unfold inSlotAddr
    omega
  simp [State.readByte, Memory.byteAt_putRecord_other _ s.captured hout]

/-- A capture operation changes items of the capture unit and clears flags only (10_state.md R20, R42). -/
theorem exec_isr_sameOutsideCapture (ha : i.agent = .isr) (h : exec i s = .next t) : s.sameOutsideCapture t := by
  cases i with
  | enterE =>
    obtain ⟨_, rfl⟩ := execEnterE_next.1 h
    exact State.sameOutsideCapture_of_mem_eq rfl
  | enterT =>
    obtain ⟨_, rfl⟩ := execEnterT_next.1 h
    exact State.sameOutsideCapture_of_mem_eq rfl
  | rdport =>
    obtain ⟨_, rfl⟩ := execRdport_next.1 h
    exact State.sameOutsideCapture_of_mem_eq rfl
  | rdtlo =>
    obtain ⟨_, rfl⟩ := execRdtlo_next.1 h
    exact State.sameOutsideCapture_of_mem_eq rfl
  | rdthi =>
    obtain ⟨_, rfl⟩ := execRdthi_next.1 h
    exact State.sameOutsideCapture_of_mem_eq rfl
  | commit => exact execCommit_sameOutsideCapture h
  | init | pin | tmr | drChk | drRd | drFwd | format | tx | service | fwdTick | fwdEdge =>
    simp [Instr.agent] at ha

theorem State.noteOverrun_flags (s : State) : s.noteOverrun.eif = s.eif ∧ s.noteOverrun.tovf = s.tovf := by
  rw [State.noteOverrun_frame]
  exact ⟨rfl, rfl⟩

/-- A capture operation leaves a flag register or clears it (R42; 40_capture_handlers.md R131, R132). -/
theorem exec_isr_flags (ha : i.agent = .isr) (h : exec i s = .next t) :
    (t.eif = s.eif ∨ t.eif = 0) ∧ (t.tovf = s.tovf ∨ t.tovf = false) := by
  cases i with
  | enterE =>
    obtain ⟨_, rfl⟩ := execEnterE_next.1 h
    exact ⟨.inr rfl, .inl rfl⟩
  | enterT =>
    obtain ⟨_, rfl⟩ := execEnterT_next.1 h
    exact ⟨.inl rfl, .inr rfl⟩
  | rdport =>
    obtain ⟨_, rfl⟩ := execRdport_next.1 h
    exact ⟨.inl rfl, .inl rfl⟩
  | rdtlo =>
    obtain ⟨_, rfl⟩ := execRdtlo_next.1 h
    exact ⟨.inl rfl, .inl rfl⟩
  | rdthi =>
    obtain ⟨_, rfl⟩ := execRdthi_next.1 h
    exact ⟨.inl rfl, .inl rfl⟩
  | commit =>
    obtain ⟨_, _, rfl⟩ := execCommit_next.1 h
    obtain ⟨heif, htovf⟩ := s.noteOverrun_flags
    exact ⟨.inl heif, .inl htovf⟩
  | init | pin | tmr | drChk | drRd | drFwd | format | tx | service | fwdTick | fwdEdge =>
    simp [Instr.agent] at ha

/-! ### What the environment changes -/

/-- PIN and TMR move the pins, the count and the flags only (44_startup_and_environment.md R197, R198). -/
theorem exec_env_frame (ha : i.agent = .env) (h : exec i s = .next t) :
    t = { s with pin := t.pin, tcnt := t.tcnt, eif := t.eif, tovf := t.tovf } := by
  cases i with
  | pin v =>
    obtain ⟨_, rfl⟩ := execPin_next.1 h
    rfl
  | tmr n =>
    obtain ⟨_, rfl⟩ := execTmr_next.1 h
    rw [State.ticks_frame]
  | init | enterE | enterT | rdport | rdtlo | rdthi | commit | drChk | drRd | drFwd | format | tx | service
    | fwdTick | fwdEdge => simp [Instr.agent] at ha

/-- PIN and TMR clear no flag (R197, R198). -/
theorem exec_env_flags (ha : i.agent = .env) (h : exec i s = .next t) :
    s.eif &&& t.eif = s.eif ∧ (s.tovf = true → t.tovf = true) := by
  cases i with
  | pin v =>
    obtain ⟨_, rfl⟩ := execPin_next.1 h
    refine ⟨?_, id⟩
    ext j hj
    simp +contextual
  | tmr n =>
    obtain ⟨_, rfl⟩ := execTmr_next.1 h
    refine ⟨?_, State.ticks_tovf _⟩
    rw [State.ticks_frame]
    exact BitVec.and_self
  | init | enterE | enterT | rdport | rdtlo | rdthi | commit | drChk | drRd | drFwd | format | tx | service
    | fwdTick | fwdEdge => simp [Instr.agent] at ha

/-! ### Each item has one owner (10_state.md R42) -/

/-- Every operation but INIT is the environment's, the capture unit's or MAIN's (R4, R110). -/
theorem Instr.agent_cases (hi : i ≠ .init) :
    i.agent = .env ∨ i.agent = .isr ∨ i.agent = .main ∨ i.agent = .mainPolicy := by
  cases i with
  | init => exact absurd rfl hi
  | pin | tmr | enterE | enterT | rdport | rdtlo | rdthi | commit | drChk | drRd | drFwd | format | tx | service
    | fwdTick | fwdEdge => simp [Instr.agent]

/-- Only INIT changes IE (10_state.md R26). -/
theorem exec_ie (hi : i ≠ .init) (h : exec i s = .next t) : t.ie = s.ie := by
  obtain ha | ha | ha := Instr.agent_cases hi
  · exact (congrArg State.ie (exec_env_frame ha h) :)
  · exact (congrArg State.ie (exec_isr_sameOutsideCapture ha h).1 :)
  · exact (congrArg State.ie (exec_main_sameForCapture ha h).1 :)

/-- No operation changes the configuration (log entry 2). -/
theorem exec_cfg (h : exec i s = .next t) : t.cfg = s.cfg := by
  by_cases hi : i = .init
  · subst hi
    obtain rfl := execInit_next.1 h
    rfl
  obtain ha | ha | ha := Instr.agent_cases hi
  · exact (congrArg State.cfg (exec_env_frame ha h) :)
  · exact (congrArg State.cfg (exec_isr_sameOutsideCapture ha h).1 :)
  · exact (congrArg State.cfg (exec_main_sameForCapture ha h).1 :)

/-- The storage of the two rings is disjoint (20_memory.md R61, R64). -/
theorem Config.rings_disjoint {c : Config} (hc : c.layoutOk) :
    c.inBase + 4 * c.inSlots ≤ c.outBase ∨ c.outBase + 4 * c.outSlots ≤ c.inBase := by
  obtain ⟨_, hvar, hout | hout⟩ := hc
  · exact .inl (by omega)
  · exact .inr hout

/-- `t` has the items the capture unit owns, the input ring's bytes among them, as `s` has them (R20). -/
def State.sameCaptureItems (s t : State) : Prop :=
  t.inHead = s.inHead ∧ t.rPort = s.rPort ∧ t.rTlo = s.rTlo ∧ t.rThi = s.rThi ∧ t.hph = s.hph ∧
    t.hkind = s.hkind ∧ ∀ n < 4 * s.cfg.inSlots, t.readByte (s.cfg.inBase + n) = s.readByte (s.cfg.inBase + n)

/-- `t` has the items MAIN owns, the output ring's bytes among them, and MAIN's ghost items as `s` has them (R20). -/
def State.sameMainItems (s t : State) : Prop :=
  t.mph = s.mph ∧ t.inTail = s.inTail ∧ t.mNe = s.mNe ∧ t.mRec = s.mRec ∧ t.quota = s.quota ∧
    t.outHead = s.outHead ∧ t.outTail = s.outTail ∧ t.lineCnt = s.lineCnt ∧ t.txbuf = s.txbuf ∧ t.cur = s.cur ∧
    t.txLog = s.txLog ∧ t.svcCnt = s.svcCnt ∧
    ∀ n < 4 * s.cfg.outSlots, t.readByte (s.cfg.outBase + n) = s.readByte (s.cfg.outBase + n)

/-- MAIN's operations leave the capture unit's items, for the rings' storage is disjoint. -/
theorem State.sameCaptureItems_of_sameForCapture (hc : s.cfg.layoutOk) (h : s.sameForCapture t) :
    s.sameCaptureItems t := by
  obtain ⟨hf, hout⟩ := h
  have hd := Config.rings_disjoint hc
  exact ⟨(congrArg State.inHead hf :), (congrArg State.rPort hf :), (congrArg State.rTlo hf :),
    (congrArg State.rThi hf :), (congrArg State.hph hf :), (congrArg State.hkind hf :),
    fun n hn => hout _ (by omega)⟩

/-- The capture unit's operations leave MAIN's items, for the rings' storage is disjoint. -/
theorem State.sameMainItems_of_sameOutsideCapture (hc : s.cfg.layoutOk) (h : s.sameOutsideCapture t) :
    s.sameMainItems t := by
  obtain ⟨hf, hout⟩ := h
  have hd := Config.rings_disjoint hc
  exact ⟨(congrArg State.mph hf :), (congrArg State.inTail hf :), (congrArg State.mNe hf :),
    (congrArg State.mRec hf :), (congrArg State.quota hf :), (congrArg State.outHead hf :),
    (congrArg State.outTail hf :), (congrArg State.lineCnt hf :), (congrArg State.txbuf hf :),
    (congrArg State.cur hf :), (congrArg State.txLog hf :), (congrArg State.svcCnt hf :),
    fun n hn => hout _ (by omega)⟩

/-- The environment's operations leave the items of both. -/
theorem State.sameItems_of_envFrame (hf : t = { s with pin := t.pin, tcnt := t.tcnt, eif := t.eif, tovf := t.tovf }) :
    s.sameCaptureItems t ∧ s.sameMainItems t := by
  rw [hf]
  exact ⟨⟨rfl, rfl, rfl, rfl, rfl, rfl, fun _ _ => rfl⟩,
    ⟨rfl, rfl, rfl, rfl, rfl, rfl, rfl, rfl, rfl, rfl, rfl, rfl, fun _ _ => rfl⟩⟩

/-- Settles O47: the frame of each agent's operations (`exec_env_frame`, `exec_isr_sameOutsideCapture`,
`exec_main_sameForCapture`) says which items it can change, and the rings' storage is disjoint. -/
theorem writerExclusivity : Obligations.WriterExclusivity := by
  intro s t i hinv h hi
  obtain ⟨⟨_, _, hlayout, _⟩, _⟩ := hinv
  have hkept : t.cfg = s.cfg ∧ t.ie = s.ie := ⟨exec_cfg h, exec_ie hi h⟩
  obtain ha | ha | ha := Instr.agent_cases hi
  · obtain ⟨hcapture, hmain⟩ := State.sameItems_of_envFrame (exec_env_frame ha h)
    exact ⟨fun _ => hcapture, fun hm => by simp [ha] at hm, fun _ => hmain, fun hc => by simp [ha] at hc,
      fun _ => exec_env_flags ha h, fun hn => absurd ha hn, hkept⟩
  · have hs := exec_isr_sameOutsideCapture ha h
    exact ⟨fun hn => absurd ha hn, fun hm => by simp [ha] at hm,
      fun _ => State.sameMainItems_of_sameOutsideCapture hlayout hs, fun _ => exec_isr_flags ha h,
      fun he => by simp [ha] at he, fun _ => ⟨(congrArg State.pin hs.1 :), (congrArg State.tcnt hs.1 :)⟩, hkept⟩
  · have hs := exec_main_sameForCapture ha h
    have hne : i.agent ≠ .isr ∧ i.agent ≠ .env := by rcases ha with ha | ha <;> simp [ha]
    exact ⟨fun _ => State.sameCaptureItems_of_sameForCapture hlayout hs,
      fun _ => ⟨(congrArg State.eif hs.1 :), (congrArg State.tovf hs.1 :)⟩, fun hx => by simp [hne] at hx,
      fun hc => absurd hc hne.1, fun he => absurd he hne.2,
      fun _ => ⟨(congrArg State.pin hs.1 :), (congrArg State.tcnt hs.1 :)⟩, hkept⟩

/-! ### Interrupts stay enabled (10_state.md R26) -/

/-- Every operation but INIT needs IE = 1 (30_encoding.md R110). -/
theorem ie_of_enabled (hi : i ≠ .init) (h : enabled i s = true) : s.ie = true := by
  cases i <;> simp_all [enabled, handlerAt, mainAt]

/-- A step answers a next state only where it is enabled (00_scope.md R13). -/
theorem enabled_of_exec (hi : i.isStep) (h : exec i s = .next t) : enabled i s = true := by
  obtain ⟨k, hk⟩ : ∃ k, exec i s = whenEnabled i s k := by
    cases i with
    | fwdTick | fwdEdge => exact absurd rfl hi
    | init | pin | tmr | enterE | enterT | rdport | rdtlo | rdthi | commit | drChk | drRd | drFwd | format | tx
      | service => exact ⟨_, rfl⟩
  exact (whenEnabled_eq_next.1 (hk ▸ h)).1

/-- An enabled operation is a step: the record classes have no enabling condition of their own (R154, R155). -/
theorem isStep_of_enabled (h : enabled i s = true) : i.isStep := by
  cases i <;> simp_all [enabled, Instr.agent]

@[simp] theorem noOperand_eq_ok {arg : Byte} {i j : Instr} :
    noOperand arg i = .ok j ↔ arg = 0 ∧ i = j := by
  unfold noOperand
  split <;> simp_all

/-- A step word decodes to a step, never to a record class (30_encoding.md R110, R112). -/
theorem isStep_of_decodeStep {w : Half} (h : decodeStep w = .ok i) : i.isStep := by
  cases i with
  | fwdTick | fwdEdge =>
    unfold decodeStep at h
    split at h <;> simp [ite_eq_iff] at h
  | init | pin | tmr | enterE | enterT | rdport | rdtlo | rdthi | commit | drChk | drRd | drFwd | format | tx
    | service => simp [Instr.agent]

/-- The fetch gives a step. -/
theorem isStep_of_fetch (h : fetch s = .ok (i, u)) : i.isStep := by
  obtain ⟨w, rest, _, hw, _⟩ | ⟨_, rfl, _⟩ := fetch_cases h
  · exact isStep_of_decodeStep hw
  · exact isStep_of_enabled (drawnStep_enabled s)

/-- INIT enables interrupts. -/
theorem exec_init_ie (h : exec .init s = .next t) : t.ie = true := by
  obtain rfl := execInit_next.1 h
  rfl

/-- A step that answers a next state is enabled, so IE was 1 and stays so, or it is INIT. -/
theorem step_ie (h : step s = .next t) : t.ie = true := by
  obtain ⟨i, u, hfetch, hexec⟩ := step_next.1 h
  by_cases hi : i = .init
  · subst hi
    exact exec_init_ie hexec
  · rw [exec_ie hi hexec]
    exact ie_of_enabled hi (enabled_of_exec (isStep_of_fetch hfetch) hexec)

/-- With IE = 0 nothing but INIT is enabled (70_reset_and_hazards.md R240). -/
theorem enabled_of_ie_false (hi : i ≠ .init) (hie : s.ie = false) : enabled i s = false := by
  by_contra h
  simp [ie_of_enabled hi (by simpa using h)] at hie

/-- Settles O48: a step is an enabled operation, and every enabled operation but INIT needs IE = 1 and keeps it. -/
theorem interruptsStayEnabled : Obligations.InterruptsStayEnabled :=
  ⟨fun _ _ => step_ie, fun _ _ => exec_init_ie,
    fun _ hie => ⟨enabled_of_ie_false (by simp) hie, enabled_of_ie_false (by simp) hie⟩,
    fun _ _ _ h hi => exec_ie hi h⟩

end Sys2Proof.Machine
end

section
/-! SUPPORT and the statements of 20_memory.md R71 to R73: what the ring primitives answer, which bytes they write,
and how an index advances. -/

namespace Sys2Proof.Machine

variable {s t : State} {q r : Record}

/-! ### Ring indices (00_scope.md R12) -/

/-- An index advances modulo the number of slots when its bits can hold every slot number. -/
theorem nextIndex_toNat {w S : Nat} (i : BitVec w) (hpos : 0 < S) (hS : S ≤ 2 ^ w) :
    (nextIndex S i).toNat = (i.toNat + 1) % S := by
  have hlt := Nat.mod_lt (i.toNat + 1) hpos
  rw [nextIndex, BitVec.toNat_ofNat, Nat.mod_eq_of_lt (by omega)]

/-- In a ring of two slots or more the next index is another one. -/
theorem nextIndex_ne_self {S n : Nat} (hS : 2 ≤ S) : (n + 1) % S ≠ n := by
  intro h
  have hn : n < S := h ▸ Nat.mod_lt _ (by omega)
  obtain hlt | heq : n + 1 < S ∨ n + 1 = S := by omega
  · rw [Nat.mod_eq_of_lt hlt] at h
    omega
  · rw [heq, Nat.mod_self] at h
    omega

theorem Config.inSlots_bounds {c : Config} (h : c.slotsOk) : 0 < c.inSlots ∧ c.inSlots ≤ 2 ^ 8 := by
  have hall : ∀ S ∈ [2, 4, 8, 16, 32, 64, 128, 256], 0 < S ∧ S ≤ 2 ^ 8 := by decide
  exact hall _ h.1

theorem ringEmpty_iff {w : Nat} {i j : BitVec w} : ringEmpty i.toNat j.toNat = true ↔ i = j := by
  simp [ringEmpty, BitVec.toNat_inj]

/-! ### Bytes after a record write (20_memory.md R62, R65) -/

theorem State.readRecord_of_mem_putRecord {m : Memory} {a : Nat} (h : s.mem = m.putRecord a r) :
    s.readRecord a = r := by
  obtain ⟨h₀, h₁, h₂, h₃⟩ := Memory.byteAt_putRecord m a r
  simp [readRecord, readByte, h, h₀, h₁, h₂, h₃]

theorem State.readByte_of_mem_putRecord_other {a x : Nat} (hmem : t.mem = s.mem.putRecord a r)
    (hdraw : t.memDraw = s.memDraw) (hx : x < a ∨ a + 4 ≤ x) : t.readByte x = s.readByte x := by
  simp [readByte, hmem, hdraw, Memory.byteAt_putRecord_other _ r hx]

/-! ### The output ring's primitives (20_memory.md R71, R73) -/

theorem State.outFull_iff : s.outFull = true ↔ (s.outHead.toNat + 1) % s.cfg.outSlots = s.outTail.toNat := by
  simp [outFull, ringFull]

theorem State.pushOut_eq_none : s.pushOut r = none ↔ s.outFull = true := by
  simp [pushOut]

theorem State.pushOut_eq_some : s.pushOut r = some t ↔ s.outFull = false ∧ s.putOut r = t := by
  simp [pushOut]

theorem State.popOut_eq_none : s.popOut = none ↔ s.outHead = s.outTail := by
  simp [popOut, ringEmpty_iff]

theorem State.popOut_eq_some_iff : s.popOut = some (q, t) ↔ s.outHead ≠ s.outTail ∧
    s.readRecord (outSlotAddr s.cfg s.outTail.toNat) = q ∧
    { s with outTail := nextIndex s.cfg.outSlots s.outTail } = t := by
  simp [popOut, ringEmpty_iff]

/-- A full ring holds a record, for it has two slots or more. -/
theorem State.outHead_ne_outTail_of_outFull (hS : 2 ≤ s.cfg.outSlots) (hfull : s.outFull = true) :
    s.outHead ≠ s.outTail := by
  intro h
  rw [outFull_iff, h] at hfull
  exact nextIndex_ne_self hS hfull

/-- The slot that a pop of a full ring frees is the one a push needs (R71). -/
theorem State.outFull_pop_of_outFull (hS : 2 ≤ s.cfg.outSlots) (hS' : s.cfg.outSlots ≤ 2 ^ 16)
    (hfull : s.outFull = true) :
    ({ s with outTail := nextIndex s.cfg.outSlots s.outTail } : State).outFull = false := by
  rw [Bool.eq_false_iff, ne_eq, outFull_iff]
  intro h
  rw [nextIndex_toNat _ (by omega) hS', outFull_iff.1 hfull] at h
  exact nextIndex_ne_self hS h.symm

/-- Settles O39: a push fails exactly on a full ring and a pop exactly on an empty one, and a full ring of two slots
or more is not empty and is no longer full after a pop. -/
theorem outputRingPrimitives : Obligations.OutputRingPrimitives := by
  intro s r ⟨⟨_, ⟨_, hS, hS'⟩, _⟩, _⟩
  have hnext (i : Half) : (nextIndex s.cfg.outSlots i).toNat = (i.toNat + 1) % s.cfg.outSlots :=
    nextIndex_toNat i (by omega) hS'
  refine ⟨State.pushOut_eq_none.trans State.outFull_iff, fun t h => ?_, fun h => ?_, State.popOut_eq_none,
    fun q t h => ?_⟩
  · obtain ⟨_, rfl⟩ := State.pushOut_eq_some.1 h
    exact ⟨State.readRecord_of_mem_putRecord rfl, fun _ => State.readByte_of_mem_putRecord_other rfl rfl,
      hnext _, rfl⟩
  · have hfull := State.pushOut_eq_none.1 h
    exact ⟨_, _, _, State.popOut_eq_some_iff.2 ⟨State.outHead_ne_outTail_of_outFull hS hfull, rfl, rfl⟩,
      State.pushOut_eq_some.2 ⟨State.outFull_pop_of_outFull hS hS' hfull, rfl⟩⟩
  · obtain ⟨_, rfl, rfl⟩ := State.popOut_eq_some_iff.1 h
    exact ⟨rfl, hnext _, rfl⟩

/-! ### The input ring's push (20_memory.md R72) -/

theorem State.inFull_iff : s.inFull = true ↔ (s.inHead.toNat + 1) % s.cfg.inSlots = s.inTail.toNat := by
  simp [inFull, ringFull]

/-- Settles O40: the push writes its slot and moves IN_HEAD whatever IN_TAIL is, and the index after IN_HEAD is
IN_TAIL on a full ring. -/
theorem inputPushUnconditional : Obligations.InputPushUnconditional := by
  intro s r ⟨_, hslots, _⟩
  obtain ⟨hpos, hS⟩ := Config.inSlots_bounds hslots
  have hhead : (s.pushIn r).inHead.toNat = (s.inHead.toNat + 1) % s.cfg.inSlots := nextIndex_toNat _ hpos hS
  exact ⟨State.readRecord_of_mem_putRecord rfl, hhead, rfl, fun _ => rfl,
    fun hfull => BitVec.eq_of_toNat_eq (hhead.trans (State.inFull_iff.1 hfull))⟩

end Sys2Proof.Machine
end

section
/-! SUPPORT and the statements of 30_encoding.md R110 to R112 and R114: the fields of a step word, which words and
records decode to what, the enabling conditions, and what the pseudo-operations run. -/

namespace Sys2Proof.Machine

/-! ### The step word (30_encoding.md R107, R111) -/

/-- A step word is the word of three fields exactly when they are its group, sub-operation and operand. -/
theorem stepWord_eq_step {g sub : BitVec 4} {arg : Byte} {w : Half} :
    stepWord g sub arg = .step w ↔ wordGrp w = g ∧ wordSub w = sub ∧ wordArg w = arg := by
  constructor
  · intro h
    obtain rfl : g ++ sub ++ arg = w := by simpa [stepWord] using h
    have hgrp : (g ++ sub ++ arg).extractLsb' 12 4 = g :=
      (BitVec.extractLsb'_append_eq_of_le (by omega)).trans BitVec.extractLsb'_append_eq_left
    have hsub : (g ++ sub ++ arg).extractLsb' 8 4 = sub :=
      (BitVec.extractLsb'_append_eq_of_le (by omega)).trans BitVec.extractLsb'_append_eq_right
    exact ⟨hgrp, hsub, BitVec.extractLsb'_append_eq_right⟩
  · rintro ⟨rfl, rfl, rfl⟩
    have hjoin : wordGrp w ++ wordSub w ++ wordArg w = w := by
      rw [wordGrp, wordSub, wordArg, BitVec.extractLsb'_append_extractLsb'_eq_extractLsb' (by rfl),
        BitVec.extractLsb'_append_extractLsb'_eq_extractLsb' (by rfl)]
      exact BitVec.extractLsb'_eq_self
    exact congrArg Encoded.step hjoin

/-- `k` of DR.RD is an operand of 0 to 3 (R109). -/
theorem drRd_operand {arg : Byte} {k : BitVec 2} :
    arg.toNat ≤ 3 ∧ arg.extractLsb' 0 2 = k ↔ arg = k.zeroExtend 8 := by
  revert arg k
  decide

/-- `r` of TX is an operand of 0 or 1 (R109). -/
theorem tx_operand {arg : Byte} {r : Bool} :
    arg.toNat ≤ 1 ∧ arg.getLsbD 0 = r ↔ arg = if r then 1 else 0 := by
  revert arg r
  decide

/-- What a step word decodes to is a well-formed operation and has that word: each row of the opcode map fixes the
group, the sub-operation and the check of the operand, and a reserved word decodes to nothing. -/
theorem encode_of_decodeStep {w : Half} {i : Instr} (h : decodeStep w = .ok i) :
    i.wellFormed = true ∧ encode i = .step w := by
  have hrd (a : Byte) (ha : a.toNat ≤ 3) : (a.extractLsb' 0 2).zeroExtend 8 = a := (drRd_operand.1 ⟨ha, rfl⟩).symm
  have htx (a : Byte) (ha : a.toNat ≤ 1) : (if a.getLsbD 0 then 1 else 0) = a := (tx_operand.1 ⟨ha, rfl⟩).symm
  unfold decodeStep at h
  split at h
  -- A row leaves `i` and its check of the operand, a reserved row a contradiction; `hrd` and `htx` give back the
  -- operands of DR.RD and TX.
  all_goals
    simp only [noOperand_eq_ok, Except.ok.injEq, ite_eq_iff, reduceCtorEq, and_false, false_or, or_false,
      eq_comm (b := i)] at h
  all_goals
    simp_all only [BitVec.toNat_eq_nat, encode, stepWord_eq_step, Instr.wellFormed, BitVec.ofNat_eq_ofNat, bne_iff_ne,
      ne_eq, not_false_eq_true, and_self]

/-- The word of a well-formed operation decodes to it. -/
theorem decodeStep_of_encode {w : Half} {i : Instr} (hi : i.wellFormed = true) (h : encode i = .step w) :
    decodeStep w = .ok i := by
  cases i with
  | fwdTick | fwdEdge => simp [encode] at h
  | drRd k =>
    obtain ⟨hgrp, hsub, harg⟩ := stepWord_eq_step.1 h
    obtain ⟨hle, hk⟩ := drRd_operand.2 harg
    simp [decodeStep, hgrp, hsub, hle, hk]
  | tx r =>
    obtain ⟨hgrp, hsub, harg⟩ := stepWord_eq_step.1 h
    obtain ⟨hle, hr⟩ := tx_operand.2 harg
    simpa [decodeStep, hgrp, hsub, hle] using hr
  | init | pin | tmr | enterE | enterT | rdport | rdtlo | rdthi | commit | drChk | drFwd | format | service =>
    obtain ⟨hgrp, hsub, harg⟩ := stepWord_eq_step.1 h
    simp_all [decodeStep, noOperand, Instr.wellFormed]

/-- Decoding and encoding are inverse on the step words (R111). -/
theorem decodeStep_eq_ok_iff {w : Half} {i : Instr} :
    decodeStep w = .ok i ↔ i.isStep ∧ i.wellFormed = true ∧ encode i = .step w :=
  ⟨fun h => ⟨isStep_of_decodeStep h, encode_of_decodeStep h⟩, fun ⟨_, hwf, henc⟩ => decodeStep_of_encode hwf henc⟩

/-- A reserved word at the head of the script is refused (R111). -/
theorem step_of_decodeStep_error {s : State} {w : Half} {rest : List Half} {e : Reserved}
    (hs : s.script = w :: rest) (hw : decodeStep w = .error e) : step s = .refused (.reservedWord w) := by
  simp [step, fetch, hs, hw]

/-- Settles O3: decoding inverts encoding exactly, so a word that no well-formed step has does not decode. -/
theorem onlyTableWordsDecode : Obligations.OnlyTableWordsDecode := by
  refine ⟨fun w i => decodeStep_eq_ok_iff, fun s w rest hs hno => ?_⟩
  cases hw : decodeStep w with
  | ok i =>
    obtain ⟨hstep, hwf, henc⟩ := decodeStep_eq_ok_iff.1 hw
    exact absurd henc (hno i hstep hwf)
  | error e => exact step_of_decodeStep_error hs hw

/-! ### The enabling conditions (30_encoding.md R110) -/

@[simp] theorem mainAt_iff {p : BitVec 4} {s : State} : mainAt p s = true ↔ s.mainReady p := by
  simp [mainAt, and_assoc]

@[simp] theorem handlerAt_iff {p : BitVec 3} {s : State} : handlerAt p s = true ↔ s.handlerReady p := by
  simp [handlerAt]

/-- MAIN stands at `M_RDk` when `MPH` is `1 + k` (10_state.md R31). -/
theorem eq_mRd_iff {p : BitVec 4} {k : BitVec 2} : p = mRd0 + k.zeroExtend 4 ↔ p.toNat = 1 + k.toNat := by
  revert p k
  decide

/-- TMR is enabled with an operand that is not zero (R109, R198). -/
theorem enabled_tmr_iff {n : Byte} {s : State} : enabled (.tmr n) s = true ↔ s.ie = true ∧ n ≠ 0 := by
  simp [enabled]

/-- ENTER.E is enabled when an edge flag is pending, unless a pending timer interrupt goes first (R131). -/
theorem enabled_enterE_iff {s : State} : enabled .enterE s = true ↔
    s.ie = true ∧ s.hph = hIdle ∧ s.eif ≠ 0 ∧ (s.cfg.irqPrio = .tickFirst → s.tovf = false) := by
  simp [enabled, and_assoc, imp_iff_not_or]

/-- ENTER.T is enabled when the timer flag is pending, unless a pending edge interrupt goes first (R132). -/
theorem enabled_enterT_iff {s : State} : enabled .enterT s = true ↔
    s.ie = true ∧ s.hph = hIdle ∧ s.tovf = true ∧ (s.cfg.irqPrio = .edgeFirst → s.eif = 0) := by
  simp [enabled, and_assoc, imp_iff_not_or]

/-- DR.RD k is enabled at `M_RDk` (R152). -/
theorem enabled_drRd_iff {k : BitVec 2} {s : State} : enabled (.drRd k) s = true ↔
    s.ie = true ∧ s.hph = hIdle ∧ s.mph.toNat = 1 + k.toNat := by
  rw [enabled, mainAt_iff, State.mainReady, eq_mRd_iff]

/-- The word of DR.RD k is `0x4100 + k`. -/
theorem encode_drRd (k : BitVec 2) : encode (.drRd k) = .step (0x4100 + k.zeroExtend 16) := by
  revert k
  decide

/-- Settles O11: the words are those the operations encode to, and `enabled` says the condition of each row. -/
theorem opcodeMapAndEnabling : Obligations.OpcodeMapAndEnabling := by
  have word {i : Instr} {w : Half} (hwf : i.wellFormed = true) (henc : encode i = .step w) : decodeStep w = .ok i :=
    decodeStep_of_encode hwf henc
  exact ⟨word rfl rfl, fun _ => word rfl rfl, fun _ hn => word (bne_iff_ne.2 hn) rfl, word rfl rfl, word rfl rfl,
    word rfl rfl, word rfl rfl, word rfl rfl, word rfl rfl, word rfl rfl, fun k => word rfl (encode_drRd k),
    word rfl rfl, word rfl rfl, word rfl rfl, word rfl rfl, word rfl rfl, fun s =>
    ⟨rfl, fun _ => Iff.rfl, fun _ => enabled_tmr_iff, enabled_enterE_iff, enabled_enterT_iff, handlerAt_iff,
      handlerAt_iff, handlerAt_iff, handlerAt_iff, mainAt_iff, fun _ => enabled_drRd_iff, mainAt_iff, mainAt_iff,
      fun _ => mainAt_iff, mainAt_iff⟩⟩

/-! ### Records (30_encoding.md R102, R112) -/

/-- Byte `k` of the 32-bit form is byte `k` of the record (R101). -/
theorem Record.ofRec32_rec32 (r : Record) : Record.ofRec32 r.rec32 = r := by
  obtain ⟨lo, hi, port, kind⟩ := r
  have hlo : (kind ++ port ++ hi ++ lo).extractLsb' 0 8 = lo := BitVec.extractLsb'_append_eq_right
  have hhi : (kind ++ port ++ hi ++ lo).extractLsb' 8 8 = hi :=
    (BitVec.extractLsb'_append_eq_of_le le_rfl).trans BitVec.extractLsb'_append_eq_right
  have hport : (kind ++ port ++ hi ++ lo).extractLsb' 16 8 = port :=
    (BitVec.extractLsb'_append_eq_of_le (by omega)).trans
      ((BitVec.extractLsb'_append_eq_of_le le_rfl).trans BitVec.extractLsb'_append_eq_right)
  have hkind : (kind ++ port ++ hi ++ lo).extractLsb' 24 8 = kind :=
    (BitVec.extractLsb'_append_eq_of_le (by omega)).trans
      ((BitVec.extractLsb'_append_eq_of_le (by omega)).trans BitVec.extractLsb'_append_eq_left)
  exact (Record.mk.injEq ..).mpr ⟨hlo, hhi, hport, hkind⟩

/-- A 32-bit form decodes to the record class of its kind byte, with the record's bytes as operands (R112). -/
theorem decodeRecord_eq (w : BitVec 32) :
    decodeRecord w =
      if (Record.ofRec32 w).isTick then
        .fwdTick (Record.ofRec32 w).tsLo (Record.ofRec32 w).tsHi (Record.ofRec32 w).port
      else
        .fwdEdge (Record.ofRec32 w).tsLo (Record.ofRec32 w).tsHi (Record.ofRec32 w).port (Record.ofRec32 w).kind := by
  simp [decodeRecord, Record.isTick, Record.ofRec32]

/-- The dispatch of DR.FWD performs the operation the record decodes to (R112). -/
theorem applyPolicy_eq (r : Record) (s : State) : applyPolicy r s = exec (decodeRecord r.rec32) s := by
  rw [decodeRecord_eq, Record.ofRec32_rec32, applyPolicy]
  split <;> rfl

/-- A step that is enabled does what its rule says. -/
theorem whenEnabled_of_enabled {i : Instr} {s : State} {k : Result} (h : enabled i s = true) :
    whenEnabled i s k = k := by
  simp [whenEnabled, h]

/-- Settles O4: the kind byte decides the decoding, and DR.FWD dispatches by the same test. -/
theorem recordDispatch : Obligations.RecordDispatch := by
  refine ⟨fun w => ⟨fun h => if_pos h, fun h => if_neg h⟩, fun s hready hne => ?_⟩
  have henabled : enabled .drFwd s = true := mainAt_iff.2 hready
  rw [exec, execDrFwd, whenEnabled_of_enabled henabled, if_pos hne, applyPolicy_eq, mapNext]

/-! ### Pseudo-operations (30_encoding.md R114) -/

/-- Ticks advance the count modulo 65536 (44_startup_and_environment.md R198). -/
theorem State.ticks_tcnt (n : Nat) (s : State) : (State.ticks n s).tcnt = s.tcnt + BitVec.ofNat 16 n := by
  induction n generalizing s with
  | zero => simp [ticks]
  | succ n ih => rw [ticks, ih, tick_tcnt, Nat.add_comm n, BitVec.ofNat_add, BitVec.add_assoc, BitVec.ofNat_eq_ofNat]

/-- Ticks set TOVF exactly when the count wraps on the way (R198). -/
theorem State.ticks_tovf_eq (n : Nat) (s : State) :
    (State.ticks n s).tovf = (s.tovf || decide (65536 ≤ s.tcnt.toNat + n)) := by
  induction n generalizing s with
  | zero => simp [ticks, s.tcnt.isLt]
  | succ n ih =>
    have hlt := s.tcnt.isLt
    rw [ticks, ih, tick_tcnt, tick_tovf, tickFlag, Bool.or_assoc]
    congr 1
    rw [Bool.eq_iff_iff]
    simp only [BitVec.ofNat_eq_ofNat, BitVec.toNat_add, BitVec.toNat_ofNat, Nat.reducePow, Nat.one_mod,
      Bool.or_eq_true, beq_iff_eq, BitVec.toNat_eq, Nat.zero_mod, decide_eq_true_eq]
    omega

/-- Ticks made one after the other add up. -/
theorem State.ticks_ticks (m n : Nat) (s : State) : State.ticks n (State.ticks m s) = State.ticks (m + n) s := by
  induction m generalizing s with
  | zero => simp [ticks]
  | succ m ih => rw [ticks, ih, Nat.succ_add, ticks]

theorem State.ticks_ie (n : Nat) (s : State) : (State.ticks n s).ie = s.ie := by rw [ticks_frame]

/-- A script of TMR steps lets as many ticks pass as they have together (R198). -/
theorem runScript_tmr (ns : List Byte) {s : State} (hie : s.ie = true) (hns : ∀ n ∈ ns, n ≠ 0) :
    runScript (ns.map .tmr) s = .next (State.ticks (ns.map BitVec.toNat).sum s) := by
  induction ns generalizing s with
  | nil => rfl
  | cons n ns ih =>
    obtain ⟨hn, hns⟩ := List.forall_mem_cons.1 hns
    have hexec : exec (.tmr n) s = .next (State.ticks n.toNat s) := execTmr_next.2 ⟨enabled_tmr_iff.2 ⟨hie, hn⟩, rfl⟩
    rw [List.map_cons, runScript, hexec]
    simp only [ih ((State.ticks_ie _ s).trans hie) hns, State.ticks_ticks, List.map_cons, List.sum_cons]

/-- The operands of the TMR steps that TMR.ADV expands to (R114). -/
def tmrAdvOperands (m : Nat) : List Byte :=
  List.replicate (m / 255) 255 ++ if m % 255 = 0 then [] else [BitVec.ofNat 8 (m % 255)]

theorem tmrAdv_expand (m : Nat) : (Pseudo.tmrAdv m).expand = (tmrAdvOperands m).map .tmr := by
  simp [Pseudo.expand, tmrAdvOperands, apply_ite (List.map Instr.tmr)]

theorem tmrAdvOperands_ne_zero (m : Nat) : ∀ n ∈ tmrAdvOperands m, n ≠ 0 := by
  intro n hn
  simp only [tmrAdvOperands, List.mem_append, List.mem_replicate] at hn
  obtain ⟨_, rfl⟩ | hn := hn
  · decide
  · split at hn
    · cases hn
    · rw [List.mem_singleton.1 hn]
      simp [BitVec.toNat_eq]
      omega

theorem tmrAdvOperands_sum (m : Nat) : ((tmrAdvOperands m).map BitVec.toNat).sum = m := by
  unfold tmrAdvOperands
  split <;> simp <;> omega

/-- Settles O7: the expansions hold by definition, a RUN repeats nine steps, and TMR.ADV runs TMR steps whose operands
add up to `m`. -/
theorem pseudoOperations : Obligations.PseudoOperations := by
  refine ⟨rfl, rfl, fun v => rfl, rfl, fun r => rfl, fun r => rfl, fun c r => rfl, fun c r => ?_,
    fun m s hie _ hm => ⟨rfl, ?_, State.ticks m s, ?_, State.ticks_tcnt m s, State.ticks_tovf_eq m s,
      State.ticks_frame s m⟩⟩
  · simp [Pseudo.expand, iterSteps, drainSteps, Nat.mul_comm]
  · simp only [Pseudo.expand]
    split <;> simp <;> omega
  · rw [tmrAdv_expand, runScript_tmr _ hie (tmrAdvOperands_ne_zero m), tmrAdvOperands_sum]

end Sys2Proof.Machine
end

section
/-! SUPPORT and the statements of 40_capture_handlers.md R131 to R136: where each capture operation runs, and the
state it leaves. -/

namespace Sys2Proof.Machine

variable {s : State} {i : Instr}

/-! ### Where a step is refused (00_scope.md R13) -/

/-- A step that is not enabled is refused. -/
theorem exec_of_not_enabled (hi : i.isStep) (h : enabled i s = false) :
    exec i s = .refused (if s.ie then .notEnabled else .notStarted) := by
  cases i with
  | fwdTick | fwdEdge => exact absurd rfl hi
  | init | pin | tmr | enterE | enterT | rdport | rdtlo | rdthi | commit | drChk | drRd | drFwd | format | tx
    | service => exact whenEnabled_of_not h

/-- A step is refused wherever its enabling condition, in whatever form, does not hold. -/
theorem refusedUnless_of_enabled_iff {p : State → Prop} (hi : i.isStep) (h : ∀ s, enabled i s = true ↔ p s) :
    refusedUnless i p :=
  fun s hs => exec_of_not_enabled hi (Bool.eq_false_iff.2 fun he => hs ((h s).1 he))

/-! ### Interrupt entry (R131, R132) -/

/-- Settles O18: ENTER.E runs exactly under R131's condition. -/
theorem enterEdgeHandler : Obligations.EnterEdgeHandler :=
  ⟨refusedUnless_of_enabled_iff (by decide) fun _ => enabled_enterE_iff,
    fun _ h => execEnterE_next.2 ⟨enabled_enterE_iff.2 h, rfl⟩⟩

/-- Settles O19: ENTER.T runs exactly under R132's condition. -/
theorem enterTimerHandler : Obligations.EnterTimerHandler :=
  ⟨refusedUnless_of_enabled_iff (by decide) fun _ => enabled_enterT_iff,
    fun _ h => execEnterT_next.2 ⟨enabled_enterT_iff.2 h, rfl⟩⟩

/-! ### The reads of a handler (R133 to R135) -/

/-- Settles O20: each read runs exactly at its phase. -/
theorem handlerReads : Obligations.HandlerReads :=
  ⟨refusedUnless_of_enabled_iff (by decide) fun _ => handlerAt_iff,
    refusedUnless_of_enabled_iff (by decide) fun _ => handlerAt_iff,
    refusedUnless_of_enabled_iff (by decide) fun _ => handlerAt_iff,
    fun _ h => execRdport_next.2 ⟨handlerAt_iff.2 h, rfl⟩,
    fun _ h => execRdtlo_next.2 ⟨handlerAt_iff.2 h, rfl⟩,
    fun _ h => execRdthi_next.2 ⟨handlerAt_iff.2 h, rfl⟩⟩

/-! ### COMMIT (R136) -/

/-- The label of an overrun is emitted exactly on a full ring. -/
theorem State.noteOverrun_evLog (s : State) : s.noteOverrun.evLog = s.evLog ++
    (if (s.inHead.toNat + 1) % s.cfg.inSlots = s.inTail.toNat then [Label.inOverrun] else []) := by
  simp only [← State.inFull_iff, State.noteOverrun]
  split <;> simp

/-- The state after COMMIT: the record in slot IN_HEAD, the index moved, no handler, and the label of an overrun. -/
def State.committed (s : State) : State :=
  { s with
    mem := s.mem.putRecord (inSlotAddr s.cfg s.inHead.toNat) s.captured
    inHead := nextIndex s.cfg.inSlots s.inHead
    hph := hIdle
    evLog := s.noteOverrun.evLog }

/-- COMMIT runs at its phase, full ring or not. -/
theorem execCommit_eq (hready : s.handlerReady hCommit) (hslot : s.inHead.toNat < s.cfg.inSlots) :
    execCommit s = .next s.committed := by
  refine execCommit_next.2 ⟨handlerAt_iff.2 hready, hslot, ?_⟩
  rw [State.noteOverrun_frame]
  rfl

/-- The record COMMIT stores is the one captured. -/
theorem State.readRecord_committed (s : State) :
    s.committed.readRecord (inSlotAddr s.cfg s.inHead.toNat) = s.captured :=
  State.readRecord_of_mem_putRecord rfl

/-- COMMIT writes no byte outside its slot. -/
theorem State.readByte_committed_other {x : Nat}
    (hx : x < inSlotAddr s.cfg s.inHead.toNat ∨ inSlotAddr s.cfg s.inHead.toNat + 4 ≤ x) :
    s.committed.readByte x = s.readByte x :=
  State.readByte_of_mem_putRecord_other rfl rfl hx

/-- Settles O21: COMMIT leaves `State.committed`, whose slot IN_HEAD holds the captured record byte by byte. -/
theorem commitPushesRecord : Obligations.CommitPushesRecord := by
  refine ⟨refusedUnless_of_enabled_iff (by decide) fun _ => handlerAt_iff, ?_⟩
  intro s hready ⟨_, hslots, _⟩ hslot
  obtain ⟨hpos, hS⟩ := Config.inSlots_bounds hslots
  obtain ⟨hlo, hhi, hport, hkind⟩ := Record.mk.inj s.readRecord_committed
  exact ⟨s.committed, execCommit_eq hready hslot, nextIndex_toNat _ hpos hS, hlo, hhi, hport, hkind,
    fun _ => State.readByte_committed_other, s.noteOverrun_evLog, rfl⟩

end Sys2Proof.Machine
end

section
/-! SUPPORT and the statements of 41_drain_rate_limiter.md R151 to R155: the test and the reads of the input pop, the
dispatch that ends it, and what each record class does with the output ring and the quota. -/

namespace Sys2Proof.Machine

variable {s : State} {l : Label} {r : Record}

/-! ### DR.CHK (R151) -/

theorem not_ringEmpty_eq {w : Nat} (i j : BitVec w) : (!ringEmpty i.toNat j.toNat) = decide (i ≠ j) := by
  rw [Bool.eq_iff_iff, Bool.not_eq_true', ← Bool.not_eq_true, ringEmpty_iff, decide_eq_true_iff]

/-- Settles O27: the emptiness test compares the two indices. -/
theorem drainCheck : Obligations.DrainCheck :=
  ⟨refusedUnless_of_enabled_iff (by decide) fun _ => mainAt_iff,
    fun s hready => execDrChk_next.2 ⟨mainAt_iff.2 hready, by rw [not_ringEmpty_eq, State.setMph]⟩⟩

/-! ### DR.RD (R152) -/

theorem bitVec_two_cases (k : BitVec 2) : k = 0 ∨ k = 1 ∨ k = 2 ∨ k = 3 := by
  revert k
  decide

/-- Byte `j` of a record after byte `k` is set (30_encoding.md R101). -/
theorem Record.byte_setByte (r : Record) (j k : BitVec 2) (v : Byte) :
    (r.setByte k v).byte j = if j = k then v else r.byte j := by
  obtain rfl | rfl | rfl | rfl := bitVec_two_cases k <;>
    obtain rfl | rfl | rfl | rfl := bitVec_two_cases j <;> rfl

/-- The phase after `M_RDk` is the next number, without wrap (10_state.md R31). -/
theorem mph_succ_toNat {p : BitVec 4} {k : BitVec 2} (h : p.toNat = 1 + k.toNat) :
    (p + 1).toNat = p.toNat + 1 := by
  bv_omega

/-- Settles O28: with a record at the tail its byte `k` is copied, without one nothing is read. -/
theorem drainReadByte : Obligations.DrainReadByte := by
  refine ⟨fun k => refusedUnless_of_enabled_iff nofun fun _ => enabled_drRd_iff, ?_⟩
  intro s k hie hhph hmph hslot b
  have henabled : enabled (.drRd k) s = true := enabled_drRd_iff.2 ⟨hie, hhph, hmph⟩
  obtain hne | hne := Bool.eq_false_or_eq_true s.mNe
  · refine ⟨State.setMph (s.mph + 1) { s with mRec := s.mRec.setByte k b },
      execDrRd_next.2 ⟨henabled, .inl ⟨hne, hslot, rfl⟩⟩, mph_succ_toNat hmph, rfl, fun hf => ?_, fun _ =>
      ⟨(Record.byte_setByte ..).trans (if_pos rfl), fun j hj => (Record.byte_setByte ..).trans (if_neg hj)⟩⟩
    exact absurd (hne.symm.trans hf) (by decide)
  · refine ⟨s.setMph (s.mph + 1), execDrRd_next.2 ⟨henabled, .inr ⟨hne, rfl⟩⟩, mph_succ_toNat hmph, rfl,
      fun _ => rfl, fun ht => ?_⟩
    exact absurd (hne.symm.trans ht) (by decide)

/-! ### The checked push of a record (R153 to R155) -/

/-- On a full ring the push fails, and its label is all that comes of it. -/
theorem State.forward_of_outFull (hfull : (s.outHead.toNat + 1) % s.cfg.outSlots = s.outTail.toNat) :
    s.forward l r = s.emitEv l := by
  rw [forward, pushOut_eq_none.2 (outFull_iff.2 hfull)]

/-- With room the record goes to slot OUT_HEAD. -/
theorem State.forward_of_room (hroom : (s.outHead.toNat + 1) % s.cfg.outSlots ≠ s.outTail.toNat) :
    s.forward l r = s.putOut r := by
  have hnot : s.outFull = false := Bool.eq_false_iff.2 fun h => hroom (outFull_iff.1 h)
  rw [forward, pushOut_eq_some.2 ⟨hnot, rfl⟩]

/-- The state after a record is forwarded with room and the quota set to `q`: the record in slot OUT_HEAD and no other
byte written, the index moved, the quota. -/
theorem State.forward_setQuota_of_room (q : BitVec 8) (hwf : s.cfg.wf)
    (hroom : (s.outHead.toNat + 1) % s.cfg.outSlots ≠ s.outTail.toNat) :
    let a := outSlotAddr s.cfg s.outHead.toNat
    let t := (s.forward l r).setQuota q
    t.outHead.toNat = (s.outHead.toNat + 1) % s.cfg.outSlots ∧ t.readRecord a = r ∧
      (∀ x, x < a ∨ a + 4 ≤ x → t.readByte x = s.readByte x) ∧
      t = { s with mem := t.mem, outHead := t.outHead, quota := q } := by
  obtain ⟨_, ⟨_, hS, hS'⟩, _⟩ := hwf
  rw [forward_of_room hroom]
  exact ⟨nextIndex_toNat _ (by omega) hS', readRecord_of_mem_putRecord rfl,
    fun _ => readByte_of_mem_putRecord_other rfl rfl, rfl⟩

/-! ### The record classes (R154, R155) -/

/-- Settles O30: the quota is restored after the push, whatever its result. -/
theorem edgeRecordPolicy : Obligations.EdgeRecordPolicy := by
  intro s l h p k hwf hslot
  refine ⟨fun hfull => execFwdEdge_next.2 ⟨hslot, ?_⟩, fun hroom =>
    ⟨_, execFwdEdge_next.2 ⟨hslot, rfl⟩, State.forward_setQuota_of_room _ hwf hroom⟩⟩
  rw [State.forward_of_outFull hfull]
  rfl

/-- Settles O31: the quota is tested before the push and spent whatever the push's result. -/
theorem tickRecordPolicy : Obligations.TickRecordPolicy := by
  intro s l h p hwf hslot
  refine ⟨fun hzero => execFwdTick_next.2 (.inl ⟨hzero, rfl⟩),
    fun hquota hfull => execFwdTick_next.2 (.inr ⟨hquota, hslot, ?_⟩), fun hquota hroom =>
    ⟨_, execFwdTick_next.2 (.inr ⟨hquota, hslot, rfl⟩), State.forward_setQuota_of_room _ hwf hroom⟩⟩
  rw [State.forward_of_outFull hfull]
  rfl

/-! ### DR.FWD (R153) -/

/-- The policy of a record always completes when OUT_HEAD is a slot. -/
theorem applyPolicy_completes (r : Record) (hslot : s.outHead.toNat < s.cfg.outSlots) :
    ∃ u, applyPolicy r s = .next u := by
  unfold applyPolicy
  split
  · by_cases hquota : s.quota = 0
    · exact ⟨_, execFwdTick_next.2 (.inl ⟨hquota, rfl⟩)⟩
    · exact ⟨_, execFwdTick_next.2 (.inr ⟨hquota, hslot, rfl⟩)⟩
  · exact ⟨_, execFwdEdge_next.2 ⟨hslot, rfl⟩⟩

/-- The policy of a record is the record class its kind byte selects (30_encoding.md R112). -/
theorem applyPolicy_eq_exec_of_kind (r : Record) (s : State) : applyPolicy r s =
    exec (if r.kind = 0x00 then .fwdTick r.tsLo r.tsHi r.port else .fwdEdge r.tsLo r.tsHi r.port r.kind) s := by
  rw [applyPolicy_eq, decodeRecord_eq, Record.ofRec32_rec32]
  simp [Record.isTick]

/-- Settles O29: DR.FWD runs the record's policy on the state with IN_TAIL advanced, when there is a record. -/
theorem drainForward : Obligations.DrainForward := by
  refine ⟨refusedUnless_of_enabled_iff (by decide) fun _ => mainAt_iff, fun s hready => ⟨fun hne =>
    execDrFwd_next.2 ⟨mainAt_iff.2 hready, .inr ⟨hne, rfl⟩⟩, fun hne ⟨_, hslots, _⟩ hslot => ?_⟩⟩
  obtain ⟨hpos, hS⟩ := Config.inSlots_bounds hslots
  obtain ⟨u, hu⟩ := applyPolicy_completes (s := s.advanceInTail) s.mRec hslot
  exact ⟨s.advanceInTail, u, nextIndex_toNat _ hpos hS, rfl, (applyPolicy_eq_exec_of_kind ..).symm.trans hu,
    execDrFwd_next.2 ⟨mainAt_iff.2 hready, .inl ⟨hne, u, hu, rfl⟩⟩⟩

end Sys2Proof.Machine
end

section
/-! SUPPORT and the statement of 42_formatter.md R171 and R172: when FORMAT renders a record, and the text, the
separator and the line counter it then leaves. -/

namespace Sys2Proof.Machine

variable {s : State}

/-! ### The text of a record (30_encoding.md R104, R105; R172) -/

theorem lineStep_eq (n cnt : Byte) : lineStep n cnt =
    (if cnt.toNat + 1 = n.toNat then 0x0A else 0x20, if cnt.toNat + 1 = n.toNat then 0 else cnt + 1) := by
  unfold lineStep
  split <;> rfl

theorem flagDigit_eq (r : Record) : flagDigit r = if r.kind = 0x00 then 0x31 else 0x30 := by
  simp [flagDigit, Record.isTick]

/-! ### FORMAT (R171) -/

/-- With text pending, or nothing to pop, FORMAT passes its turn. -/
theorem execFormat_of_idle {b : Byte} (hready : s.mainReady mFmt) (hb : s.curByte = some b)
    (hidle : b ≠ termByte ∨ s.outHead = s.outTail) : execFormat s = .next (s.setMph mTx) := by
  have hempty : b = termByte → s.popOut = none := fun hterm =>
    State.popOut_eq_none.2 (hidle.resolve_left (not_not_intro hterm))
  exact execFormat_next.2 ⟨mainAt_iff.2 hready, b, hb, .inr ⟨hempty, rfl⟩⟩

/-- The state after FORMAT renders the record at OUT_TAIL. -/
def State.rendered (s : State) : State :=
  (State.render (s.readRecord (outSlotAddr s.cfg s.outTail.toNat))
    { s with outTail := nextIndex s.cfg.outSlots s.outTail }).setMph mTx

/-- With the text consumed and a record waiting, FORMAT pops it and renders it. -/
theorem execFormat_of_waiting (hready : s.mainReady mFmt) (hb : s.curByte = some termByte)
    (hne : s.outHead ≠ s.outTail) (hslot : s.outTail.toNat < s.cfg.outSlots) : execFormat s = .next s.rendered :=
  execFormat_next.2 ⟨mainAt_iff.2 hready, termByte, hb,
    .inl ⟨rfl, _, _, State.popOut_eq_some_iff.2 ⟨hne, rfl, rfl⟩, hslot, rfl⟩⟩

/-- Settles O34: FORMAT passes its turn or leaves `State.rendered`, whose text is the record's. -/
theorem formatRenders : Obligations.FormatRenders := by
  refine ⟨refusedUnless_of_enabled_iff (by decide) fun _ => mainAt_iff, fun s b hready hb =>
    ⟨execFormat_of_idle hready hb, ?_⟩⟩
  intro hterm hne ⟨_, ⟨_, hS, hS'⟩, _⟩ hslot
  refine ⟨s.rendered, execFormat_of_waiting hready (hterm ▸ hb) hne hslot, nextIndex_toNat _ (by omega) hS', ?_⟩
  rw [State.rendered, State.render, tokenText, flagDigit_eq, lineStep_eq]
  rfl

end Sys2Proof.Machine
end

section
/-! The statements of 43_transmitter.md R186 and R188: what one TX does with the text byte at CUR, and what SERVICE
does after it. -/

namespace Sys2Proof.Machine

/-- Settles O36: the byte at CUR, and `r` when it is a text byte, select TX's case. -/
theorem transmitAtMostOneByte : Obligations.TransmitAtMostOneByte := by
  refine ⟨fun r => refusedUnless_of_enabled_iff nofun fun _ => mainAt_iff, fun s b hready hb => ?_⟩
  have henabled (r : Bool) : enabled (.tx r) s = true := mainAt_iff.2 hready
  exact ⟨fun hterm r => execTx_next.2 ⟨henabled r, b, hb, .inl ⟨hterm, rfl⟩⟩, fun htext =>
    ⟨execTx_next.2 ⟨henabled true, b, hb, .inr (.inl ⟨htext, rfl, rfl⟩)⟩,
      execTx_next.2 ⟨henabled false, b, hb, .inr (.inr ⟨htext, rfl, rfl⟩)⟩⟩⟩

/-- Settles O37: SERVICE runs exactly at its phase, whatever TX did before it. -/
theorem serviceStrobe : Obligations.ServiceStrobe :=
  ⟨refusedUnless_of_enabled_iff (by decide) fun _ => mainAt_iff,
    fun _ hready => execService_next.2 ⟨mainAt_iff.2 hready, rfl⟩⟩

end Sys2Proof.Machine
end

section
/-! SUPPORT and the statements of 44_startup_and_environment.md R196 to R198: the reset state INIT leaves, which edge
flags a change of the pins sets, and what the ticks of one TMR do. -/

namespace Sys2Proof.Machine

variable {c : Config}

/-! ### INIT (R196) -/

/-- Settles O14: INIT is enabled in every state and leaves `State.initialize`, which writes each of these items. -/
theorem initResets : Obligations.InitResets := fun s =>
  ⟨s.initialize, execInit_next.2 rfl, s.initialize_eif, s.initialize_tovf, s.initialize_inHead, s.initialize_inTail,
    s.initialize_hph, s.initialize_outHead, s.initialize_outTail, s.initialize_mph, s.initialize_mNe,
    s.initialize_quota, s.initialize_lineCnt, s.initialize_txbuf_zero, s.initialize_cur, s.initialize_txLog,
    s.initialize_svcCnt, s.initialize_evLog, s.initialize_ie, s.initialize_pin, s.initialize_cfg⟩

/-! ### PIN (R197) -/

theorem getLsbD_of_mem_monitoredPins {mask : Byte} {p : Nat} (h : p ∈ monitoredPins mask) : mask.getLsbD p = true :=
  (List.mem_filter.1 h).2

/-- The pin of a flag is monitored, so taking only the monitored changes loses nothing. -/
theorem quadFlag_changedPins (c : Config) (old new : Byte) (i : Nat) :
    quadFlag c.monMask (changedPins c old new) i = quadFlag c.monMask (old ^^^ new) i := by
  unfold quadFlag
  split
  · next p hp =>
    have hmon : c.monMask.getLsbD p = true := getLsbD_of_mem_monitoredPins (List.mem_of_getElem? hp)
    rw [changedPins, BitVec.getLsbD_and, hmon, Bool.and_true]
  · rfl

/-- Bit `i` of the flags a change sets in EDGE_QUAD is the flag of the `i`-th monitored pin. -/
theorem getLsbD_edgeFlags_of_edgeQuad (hquad : c.topology = .edgeQuad) (chg : Byte) {i : Nat} (hi : i < 4) :
    (edgeFlags c chg).getLsbD i = quadFlag c.monMask chg i := by
  simp only [edgeFlags, hquad, BitVec.getLsbD_append]
  interval_cases i <;> simp

/-- In CHANGE_OCTA a change of any monitored pin sets flag 0. -/
theorem edgeFlags_of_changeOcta (hocta : c.topology = .changeOcta) (chg : Byte) :
    edgeFlags c chg = if chg = 0 then 0 else 1 := by
  simp only [edgeFlags, hocta]

/-- Settles O16: PIN leaves `State.movePins`, which adds the flags of the changed monitored pins. -/
theorem pinSetsEdgeFlags : Obligations.PinSetsEdgeFlags := by
  refine ⟨fun v => refusedUnless_of_enabled_iff nofun fun _ => Iff.rfl, fun s v _ hie =>
    ⟨s.movePins v, execPin_next.2 ⟨hie, rfl⟩, rfl, fun hquad i hi => ?_, fun hocta => ?_⟩⟩
  · rw [State.movePins_eif, BitVec.getLsbD_or, getLsbD_edgeFlags_of_edgeQuad hquad _ hi, quadFlag_changedPins]
    rfl
  · rw [State.movePins_eif, edgeFlags_of_changeOcta hocta, changedPins, apply_ite (s.eif ||| ·)]
    exact if_congr Iff.rfl BitVec.or_zero rfl

/-! ### TMR (R198) -/

/-- The state after `n` ticks in one: the count advanced and the flag of a wrap. -/
theorem State.ticks_eq (n : Nat) (s : State) : State.ticks n s = { s with
    tcnt := s.tcnt + BitVec.ofNat 16 n
    tovf := s.tovf || decide (65536 ≤ s.tcnt.toNat + n) } := by
  rw [ticks_frame, ticks_tcnt, ticks_tovf_eq]

/-- Settles O17: TMR n is n single ticks, whose counts and wraps add up. -/
theorem timerTicks : Obligations.TimerTicks := by
  refine ⟨fun n => refusedUnless_of_enabled_iff nofun fun _ => enabled_tmr_iff, fun s n hie hn =>
    execTmr_next.2 ⟨enabled_tmr_iff.2 ⟨hie, hn⟩, ?_⟩⟩
  rw [State.ticks_eq, BitVec.ofNat_toNat]

end Sys2Proof.Machine
end

section
/-! SUPPORT and the statement of 60_exceptions.md R210: every update the operations are made of keeps the invariant of
10_state.md R44, so every step does, and where the invariant holds an enabled operation completes. -/

namespace Sys2Proof.Machine

variable {s t u : State} {i : Instr}

/-! ### Bounds of single items -/

/-- An advanced index is a slot of its ring. -/
theorem nextIndex_lt {w S : Nat} (i : BitVec w) (hpos : 0 < S) (hS : S ≤ 2 ^ w) : (nextIndex S i).toNat < S := by
  rw [nextIndex_toNat i hpos hS]
  exact Nat.mod_lt _ hpos

/-- LINECNT stays below `N` (42_formatter.md R172). -/
theorem lineStep_lt {n cnt : Byte} (h : cnt.toNat < n.toNat) : (lineStep n cnt).2.toNat < n.toNat := by
  unfold lineStep
  split
  · exact Nat.zero_lt_of_lt h
  · show (cnt + 1).toNat < n.toNat
    bv_omega

/-- A change of the pins sets no flag that does not exist (10_state.md R24, 44_startup_and_environment.md R197). -/
theorem edgeFlags_of_not_implemented {c : Config} (chg : Byte) {i : Nat} (hi : i < 4)
    (h : eifImplemented c i = false) : (edgeFlags c chg).getLsbD i = false := by
  cases htop : c.topology with
  | edgeQuad =>
    have hnot : decide (i < popcount c.monMask) = false := by simpa only [eifImplemented, htop] using h
    have hlen : (monitoredPins c.monMask).length ≤ i := not_lt.1 (of_decide_eq_false hnot)
    rw [getLsbD_edgeFlags_of_edgeQuad htop chg hi, quadFlag, List.getElem?_eq_none hlen]
  | changeOcta =>
    have hne : i ≠ 0 := by simpa [eifImplemented, htop] using h
    rw [edgeFlags_of_changeOcta htop]
    split
    · exact BitVec.getLsbD_zero
    · simp [BitVec.getLsbD_one, hne]

/-! ### What each update needs to keep the invariant (10_state.md R44) -/

theorem State.Inv.inSlots_bounds (h : s.Inv) : 0 < s.cfg.inSlots ∧ s.cfg.inSlots ≤ 2 ^ 8 := by
  obtain ⟨⟨_, hslots, _⟩, _⟩ := h
  exact Config.inSlots_bounds hslots

theorem State.Inv.outSlots_bounds (h : s.Inv) : 0 < s.cfg.outSlots ∧ s.cfg.outSlots ≤ 2 ^ 16 := by
  obtain ⟨⟨_, ⟨_, hS, hS'⟩, _⟩, _⟩ := h
  exact ⟨by omega, hS'⟩

theorem State.Inv.setMph {p : BitVec 4} (h : s.Inv) (hp : p ≤ mSvc) : (s.setMph p).Inv := by
  obtain ⟨hcfg, hmem, hidx, hcnt, ⟨hhph, _⟩, htext, hflags⟩ := h
  exact ⟨hcfg, hmem, hidx, hcnt, ⟨hhph, hp⟩, htext, hflags⟩

theorem State.Inv.setHph {p : BitVec 3} (h : s.Inv) (hp : p ≤ hCommit) : (s.setHph p).Inv := by
  obtain ⟨hcfg, hmem, hidx, hcnt, ⟨_, hmph⟩, htext, hflags⟩ := h
  exact ⟨hcfg, hmem, hidx, hcnt, ⟨hp, hmph⟩, htext, hflags⟩

theorem State.Inv.setQuota {q : BitVec 8} (h : s.Inv) (hq : q ≤ s.cfg.tickQuotaMax) : (s.setQuota q).Inv := by
  obtain ⟨hcfg, hmem, hidx, ⟨_, hline⟩, hph, htext, hflags⟩ := h
  exact ⟨hcfg, hmem, hidx, ⟨hq, hline⟩, hph, htext, hflags⟩

theorem State.Inv.clearEif (h : s.Inv) : State.Inv { s with eif := 0 } := by
  obtain ⟨hcfg, hmem, hidx, hcnt, hph, htext, _⟩ := h
  exact ⟨hcfg, hmem, hidx, hcnt, hph, htext, fun _ _ => BitVec.getLsbD_zero⟩

theorem State.Inv.advanceInTail (h : s.Inv) : s.advanceInTail.Inv := by
  obtain ⟨hpos, hS⟩ := h.inSlots_bounds
  obtain ⟨hcfg, hmem, ⟨hhead, _, hout⟩, hrest⟩ := h
  exact ⟨hcfg, hmem, ⟨hhead, nextIndex_lt _ hpos hS, hout⟩, hrest⟩

theorem State.Inv.pushIn (r : Record) (h : s.Inv) : (s.pushIn r).Inv := by
  obtain ⟨hpos, hS⟩ := h.inSlots_bounds
  obtain ⟨hcfg, hmem, ⟨_, htail, hout⟩, hrest⟩ := h
  exact ⟨hcfg, Memory.putRecord_wf _ r hmem, ⟨nextIndex_lt _ hpos hS, htail, hout⟩, hrest⟩

theorem State.Inv.putOut (r : Record) (h : s.Inv) : (s.putOut r).Inv := by
  obtain ⟨hpos, hS⟩ := h.outSlots_bounds
  obtain ⟨hcfg, hmem, ⟨hhead, htail, _, houtTail⟩, hrest⟩ := h
  exact ⟨hcfg, Memory.putRecord_wf _ r hmem, ⟨hhead, htail, nextIndex_lt _ hpos hS, houtTail⟩, hrest⟩

theorem State.Inv.popOut {r : Record} (h : s.Inv) (hpop : s.popOut = some (r, u)) : u.Inv := by
  obtain rfl := State.popOut_eq_some hpop
  obtain ⟨hpos, hS⟩ := h.outSlots_bounds
  obtain ⟨hcfg, hmem, ⟨hhead, htail, houtHead, _⟩, hrest⟩ := h
  exact ⟨hcfg, hmem, ⟨hhead, htail, houtHead, nextIndex_lt _ hpos hS⟩, hrest⟩

/-- A token ends with the marker (30_encoding.md R104). -/
theorem State.Inv.render (r : Record) (h : s.Inv) : (s.render r).Inv := by
  obtain ⟨hcfg, hmem, hidx, ⟨hquota, hline⟩, hph, _, hflags⟩ := h
  exact ⟨hcfg, hmem, hidx, ⟨hquota, lineStep_lt hline⟩, hph,
    ⟨Nat.zero_le _, fun j hj => absurd hj (Nat.not_lt_zero _), 8, Nat.zero_le _, rfl⟩, hflags⟩

/-- The cursor passes a byte that is no marker, and the marker still lies at it or after it (43_transmitter.md R186). -/
theorem State.Inv.emitTx {b : Byte} (h : s.Inv) (hb : s.curByte = some b) (hne : b ≠ termByte) :
    (s.emitTx b).Inv := by
  obtain ⟨hcfg, hmem, hidx, hcnt, hph, ⟨hcur, hbefore, j, hj, hterm⟩, hflags⟩ := h
  have htext : s.txbuf[s.cur.toNat] = b := by
    simpa [State.curByte, Vector.getElem?_eq_getElem (show s.cur.toNat < 9 by omega)] using hb
  have hjne : s.cur.toNat ≠ j.val := by
    intro heq
    exact hne (htext.symm.trans (by simpa [heq] using hterm))
  have hnext : (s.cur + 1).toNat = s.cur.toNat + 1 := by bv_omega
  refine ⟨hcfg, hmem, hidx, hcnt, hph, ⟨?_, fun k hk => ?_, j, ?_, hterm⟩, hflags⟩
  · show (s.cur + 1).toNat ≤ 8
    omega
  · change k.val < (s.cur + 1).toNat at hk
    obtain hlt | heq : k.val < s.cur.toNat ∨ k.val = s.cur.toNat := by omega
    · exact hbefore k hlt
    · show s.txbuf[k.val] ≠ termByte
      simpa [heq, htext] using hne
  · show (s.cur + 1).toNat ≤ j.val
    omega

theorem State.Inv.movePins (v : Byte) (h : s.Inv) : (s.movePins v).Inv := by
  obtain ⟨hcfg, hmem, hidx, hcnt, hph, htext, hflags⟩ := h
  refine ⟨hcfg, hmem, hidx, hcnt, hph, htext, fun i hi => ?_⟩
  have hset : (edgeFlags s.cfg (changedPins s.cfg s.pin v)).getLsbD i = false :=
    edgeFlags_of_not_implemented _ i.isLt hi
  rw [State.movePins_eif, BitVec.getLsbD_or, hflags i hi, hset, Bool.or_self]

theorem State.Inv.ticks (n : Nat) (h : s.Inv) : (State.ticks n s).Inv := by
  rw [State.ticks_frame]
  exact h

theorem State.Inv.noteOverrun (h : s.Inv) : s.noteOverrun.Inv := by
  rw [State.noteOverrun_frame]
  exact h

theorem State.Inv.forward (l : Label) (r : Record) (h : s.Inv) : (s.forward l r).Inv := by
  obtain ⟨_, heq⟩ | ⟨_, heq⟩ := State.forward_cases l r s
  · exact heq ▸ h.putOut r
  · exact heq ▸ h

/-- A checked push leaves the configuration. -/
theorem State.forward_cfg (l : Label) (r : Record) (s : State) : (s.forward l r).cfg = s.cfg := by
  obtain ⟨_, heq⟩ | ⟨_, heq⟩ := State.forward_cases l r s <;> rw [heq] <;> rfl

/-- INIT establishes the invariant from any state with a legal configuration (R43, R44). -/
theorem State.initialize_inv (hcfg : s.cfg.wf) : s.initialize.Inv := by
  have ⟨_, hslots, _, hline, _⟩ := hcfg
  obtain ⟨hin, _⟩ := Config.inSlots_bounds hslots
  obtain ⟨_, hout, _⟩ := hslots
  have hout : 0 < s.cfg.outSlots := by omega
  exact ⟨hcfg, .nil, ⟨hin, hin, hout, hout⟩, ⟨BitVec.le_refl _, hline⟩,
    ⟨(by decide : hIdle ≤ hCommit), (by decide : mChk ≤ mSvc)⟩,
    ⟨Nat.zero_le _, fun j hj => absurd hj (Nat.not_lt_zero _), 0, Nat.zero_le _, rfl⟩,
    fun _ _ => BitVec.getLsbD_zero⟩

/-! ### Every operation, every step and every run keeps the invariant -/

theorem execFwdEdge_inv {a b c d : Byte} (hs : s.Inv) (h : execFwdEdge a b c d s = .next t) : t.Inv := by
  obtain ⟨_, rfl⟩ := execFwdEdge_next.1 h
  exact (hs.forward _ _).setQuota (by rw [State.forward_cfg]; exact BitVec.le_refl _)

/-- The quota is at least 1 where it is spent (41_drain_rate_limiter.md R155). -/
theorem execFwdTick_inv {a b c : Byte} (hs : s.Inv) (h : execFwdTick a b c s = .next t) : t.Inv := by
  obtain ⟨_, rfl⟩ | ⟨hne, _, rfl⟩ := execFwdTick_next.1 h
  · exact hs
  · have ⟨_, _, _, ⟨hquota, _⟩, _⟩ := hs
    refine (hs.forward _ _).setQuota ?_
    rw [State.forward_cfg]
    bv_omega

theorem applyPolicy_inv {r : Record} (hs : s.Inv) (h : applyPolicy r s = .next t) : t.Inv := by
  unfold applyPolicy at h
  split at h
  · exact execFwdTick_inv hs h
  · exact execFwdEdge_inv hs h

theorem execDrRd_inv {k : BitVec 2} (hs : s.Inv) (h : execDrRd k s = .next t) : t.Inv := by
  obtain ⟨he, hcase⟩ := execDrRd_next.1 h
  obtain ⟨_, _, hmph⟩ := enabled_drRd_iff.1 he
  have hle : s.mph + 1 ≤ mSvc := by bv_omega
  obtain ⟨_, _, rfl⟩ | ⟨_, rfl⟩ := hcase
  · exact State.Inv.setMph (s := { s with mRec := _ }) hs hle
  · exact hs.setMph hle

theorem exec_inv (hs : s.Inv) (h : exec i s = .next t) : t.Inv := by
  cases i with
  | init =>
    obtain rfl := execInit_next.1 h
    obtain ⟨hcfg, _⟩ := hs
    exact State.initialize_inv hcfg
  | pin v =>
    obtain ⟨_, rfl⟩ := execPin_next.1 h
    exact hs.movePins v
  | tmr n =>
    obtain ⟨_, rfl⟩ := execTmr_next.1 h
    exact hs.ticks _
  | enterE =>
    obtain ⟨_, rfl⟩ := execEnterE_next.1 h
    exact hs.clearEif.setHph (by decide)
  | enterT =>
    obtain ⟨_, rfl⟩ := execEnterT_next.1 h
    exact hs.setHph (by decide)
  | rdport =>
    obtain ⟨_, rfl⟩ := execRdport_next.1 h
    exact hs.setHph (by decide)
  | rdtlo =>
    obtain ⟨_, rfl⟩ := execRdtlo_next.1 h
    exact hs.setHph (by decide)
  | rdthi =>
    obtain ⟨_, rfl⟩ := execRdthi_next.1 h
    exact hs.setHph (by decide)
  | commit =>
    obtain ⟨_, _, rfl⟩ := execCommit_next.1 h
    exact (hs.noteOverrun.pushIn _).setHph (by decide)
  | drChk =>
    obtain ⟨_, rfl⟩ := execDrChk_next.1 h
    exact hs.setMph (by decide)
  | drRd k => exact execDrRd_inv hs h
  | drFwd =>
    obtain ⟨_, ⟨_, u, hu, rfl⟩ | ⟨_, rfl⟩⟩ := execDrFwd_next.1 h
    · exact (applyPolicy_inv hs.advanceInTail hu).setMph (by decide)
    · exact hs.setMph (by decide)
  | format =>
    obtain ⟨_, _, _, ⟨_, r, u, hpop, _, rfl⟩ | ⟨_, rfl⟩⟩ := execFormat_next.1 h
    · exact ((hs.popOut hpop).render r).setMph (by decide)
    · exact hs.setMph (by decide)
  | tx r =>
    obtain ⟨_, b, hb, ⟨_, rfl⟩ | ⟨hne, _, rfl⟩ | ⟨_, _, rfl⟩⟩ := execTx_next.1 h
    · exact hs.setMph (by decide)
    · exact (hs.emitTx hb hne).setMph (by decide)
    · exact hs.setMph (by decide)
  | service =>
    obtain ⟨_, rfl⟩ := execService_next.1 h
    exact hs.setMph (by decide)
  | fwdTick a b c => exact execFwdTick_inv hs h
  | fwdEdge a b c d => exact execFwdEdge_inv hs h

/-- The fetch touches no item of the invariant. -/
theorem fetch_inv (hs : s.Inv) (h : fetch s = .ok (i, u)) : u.Inv := by
  obtain ⟨w, rest, _, _, rfl⟩ | ⟨_, _, rfl⟩ := fetch_cases h
  · exact hs
  · exact hs

theorem step_inv (hs : s.Inv) (h : step s = .next t) : t.Inv := by
  obtain ⟨i, u, hfetch, hexec⟩ := step_next.1 h
  exact exec_inv (fetch_inv hs hfetch) hexec

theorem reaches_inv (hs : s.Inv) (h : Reaches s t) : t.Inv := by
  induction h with
  | refl => exact hs
  | tail _ hstep ih => exact step_inv ih hstep

/-! ### An enabled operation completes (60_exceptions.md R210) -/

/-- The cursor is in the buffer, so there is a byte to look at. -/
theorem State.Inv.curByte_eq_some (h : s.Inv) : ∃ b, s.curByte = some b := by
  obtain ⟨_, _, _, _, _, ⟨hcur, _⟩, _⟩ := h
  exact ⟨_, Vector.getElem?_eq_getElem (show s.cur.toNat < 9 by omega)⟩

theorem execFormat_completes (hs : s.Inv) (he : enabled .format s = true) : ∃ t, execFormat s = .next t := by
  obtain ⟨b, hb⟩ := hs.curByte_eq_some
  have hready := mainAt_iff.1 he
  by_cases hidle : b ≠ termByte ∨ s.outHead = s.outTail
  · exact ⟨_, execFormat_of_idle hready hb hidle⟩
  · obtain ⟨hterm, hne⟩ := not_or.1 hidle
    obtain ⟨_, _, ⟨_, _, _, hslot⟩, _⟩ := hs
    exact ⟨_, execFormat_of_waiting hready (not_not.1 hterm ▸ hb) hne hslot⟩

theorem execTx_completes {r : Bool} (hs : s.Inv) (he : enabled (.tx r) s = true) : ∃ t, execTx r s = .next t := by
  obtain ⟨b, hb⟩ := hs.curByte_eq_some
  by_cases hterm : b = termByte
  · exact ⟨_, execTx_next.2 ⟨he, b, hb, .inl ⟨hterm, rfl⟩⟩⟩
  · cases r with
    | true => exact ⟨_, execTx_next.2 ⟨he, b, hb, .inr (.inl ⟨hterm, rfl, rfl⟩)⟩⟩
    | false => exact ⟨_, execTx_next.2 ⟨he, b, hb, .inr (.inr ⟨hterm, rfl, rfl⟩)⟩⟩

theorem exec_completes (hs : s.Inv) (he : enabled i s = true) : ∃ t, exec i s = .next t := by
  have ⟨_, _, ⟨hinHead, hinTail, houtHead, _⟩, _⟩ := hs
  cases i with
  | init => exact ⟨_, execInit_next.2 rfl⟩
  | pin v => exact ⟨_, execPin_next.2 ⟨he, rfl⟩⟩
  | tmr n => exact ⟨_, execTmr_next.2 ⟨he, rfl⟩⟩
  | enterE => exact ⟨_, execEnterE_next.2 ⟨he, rfl⟩⟩
  | enterT => exact ⟨_, execEnterT_next.2 ⟨he, rfl⟩⟩
  | rdport => exact ⟨_, execRdport_next.2 ⟨he, rfl⟩⟩
  | rdtlo => exact ⟨_, execRdtlo_next.2 ⟨he, rfl⟩⟩
  | rdthi => exact ⟨_, execRdthi_next.2 ⟨he, rfl⟩⟩
  | commit => exact ⟨_, execCommit_next.2 ⟨he, hinHead, rfl⟩⟩
  | drChk => exact ⟨_, execDrChk_next.2 ⟨he, rfl⟩⟩
  | drRd k =>
    obtain hne | hne := Bool.eq_false_or_eq_true s.mNe
    · exact ⟨_, execDrRd_next.2 ⟨he, .inl ⟨hne, hinTail, rfl⟩⟩⟩
    · exact ⟨_, execDrRd_next.2 ⟨he, .inr ⟨hne, rfl⟩⟩⟩
  | drFwd =>
    obtain hne | hne := Bool.eq_false_or_eq_true s.mNe
    · obtain ⟨u, hu⟩ := applyPolicy_completes (s := s.advanceInTail) s.mRec houtHead
      exact ⟨_, execDrFwd_next.2 ⟨he, .inl ⟨hne, u, hu, rfl⟩⟩⟩
    · exact ⟨_, execDrFwd_next.2 ⟨he, .inr ⟨hne, rfl⟩⟩⟩
  | format => exact execFormat_completes hs he
  | tx r => exact execTx_completes hs he
  | service => exact ⟨_, execService_next.2 ⟨he, rfl⟩⟩
  | fwdTick | fwdEdge => exact absurd rfl (isStep_of_enabled he)

/-- A step completes or is refused, and it is refused exactly where it is not enabled. -/
theorem exec_outcome (hs : s.Inv) (hi : i.isStep) :
    (enabled i s = true ∧ ∃ t, exec i s = .next t) ∨ (enabled i s = false ∧ ∃ r, exec i s = .refused r) := by
  obtain he | he := Bool.eq_false_or_eq_true (enabled i s)
  · exact .inl ⟨he, exec_completes hs he⟩
  · exact .inr ⟨he, _, exec_of_not_enabled hi he⟩

/-- The fetch changes nothing an enabling condition reads. -/
theorem enabled_of_fetch (h : fetch s = .ok (i, u)) (j : Instr) : enabled j u = enabled j s := by
  obtain ⟨w, rest, _, _, rfl⟩ | ⟨_, _, rfl⟩ := fetch_cases h <;> cases j <;> rfl

theorem step_of_fetch (h : fetch s = .ok (i, u)) : step s = exec i u := by
  simp [step, h]

/-- What a step can be where the invariant holds: it completes, or it is refused for a word of the script that is
reserved or whose operation is not enabled. A step of the free schedule is enabled, so it completes. -/
theorem step_outcome (hs : s.Inv) : (∃ t, step s = .next t) ∨
    ((∃ r, step s = .refused r) ∧ ∃ w rest, s.script = w :: rest ∧
      ((∃ e, decodeStep w = .error e) ∨ ∃ i, decodeStep w = .ok i ∧ enabled i s = false)) := by
  cases hscript : s.script with
  | nil =>
    have hfetch : fetch s = .ok (drawnStep s, s.countDraw (drawnStep s)) := by simp [fetch, hscript]
    rw [step_of_fetch hfetch]
    exact .inl (exec_completes (fetch_inv hs hfetch) ((enabled_of_fetch hfetch _).trans (drawnStep_enabled s)))
  | cons w rest =>
    cases hw : decodeStep w with
    | error e => exact .inr ⟨⟨_, step_of_decodeStep_error hscript hw⟩, w, rest, rfl, .inl ⟨e, hw⟩⟩
    | ok i =>
      have hfetch : fetch s = .ok (i, { s with script := rest }) := by simp [fetch, hscript, hw]
      rw [step_of_fetch hfetch]
      obtain ⟨_, hnext⟩ | ⟨he, href⟩ := exec_outcome (fetch_inv hs hfetch) (isStep_of_decodeStep hw)
      · exact .inl hnext
      · exact .inr ⟨href, w, rest, rfl, .inr ⟨i, hw, (enabled_of_fetch hfetch i).symm.trans he⟩⟩

/-- Settles O45: every state reached has the invariant (`reaches_inv`), and `step_outcome` says what a step can be
there. -/
theorem noStepFaults : Obligations.NoStepFaults := by
  intro s t hs hreach
  obtain ⟨u, hu⟩ | ⟨⟨r, hr⟩, hscript⟩ := step_outcome (reaches_inv hs hreach)
  · exact ⟨fun f hf => by simp [hu] at hf, fun r hr => by simp [hu] at hr⟩
  · exact ⟨fun f hf => by simp [hr] at hf, fun _ _ => hscript⟩

end Sys2Proof.Machine
end

section
/-! SUPPORT and the statement of 60_exceptions.md R211: no operation looks at EVLOG, and which label, if any, each
operation appends to it. -/

namespace Sys2Proof.Machine

/-! ### Nothing but EVLOG depends on EVLOG (10_state.md R40) -/

/-- Two outcomes that agree but for the labels of their next states. -/
abbrev sameButLabels (k k' : Result) : Prop :=
  mapNext State.withoutLabels k = mapNext State.withoutLabels k'

section

variable (s : State) (ev : List Label) {i : Instr} {k k' : Result}

/-- No enabling condition reads EVLOG. -/
theorem enabled_evLog (i : Instr) : enabled i { s with evLog := ev } = enabled i s := by
  cases i <;> rfl

/-! No guard of an operation reads EVLOG, nor does the end of DR.FWD. -/

theorem sameButLabels_whenEnabled (h : sameButLabels k k') :
    sameButLabels (whenEnabled i { s with evLog := ev } k) (whenEnabled i s k') := by
  unfold whenEnabled
  rw [enabled_evLog]
  split
  · exact h
  · rfl

theorem sameButLabels_withInSlot {j : BitVec 8} (h : sameButLabels k k') :
    sameButLabels (withInSlot j { s with evLog := ev } k) (withInSlot j s k') := by
  unfold withInSlot
  split
  · exact h
  · rfl

theorem sameButLabels_withOutSlot {j : Half} (h : sameButLabels k k') :
    sameButLabels (withOutSlot j { s with evLog := ev } k) (withOutSlot j s k') := by
  unfold withOutSlot
  split
  · exact h
  · rfl

theorem sameButLabels_andThen_setMph {p : BitVec 4} (h : sameButLabels k k') :
    sameButLabels (andThen k (State.setMph p)) (andThen k' (State.setMph p)) := by
  have swap (k : Result) : mapNext State.withoutLabels (andThen k (State.setMph p)) =
      andThen (mapNext State.withoutLabels k) (State.setMph p) := by
    cases k <;> rfl
  rw [sameButLabels, swap, swap, h]

/-- A checked push and its label, labels apart. -/
theorem State.forward_withoutLabels (l : Label) (r : Record) :
    (s.forward l r).withoutLabels = if s.outFull then s.withoutLabels else (s.putOut r).withoutLabels := by
  obtain ⟨hfull, heq⟩ | ⟨hfull, heq⟩ := State.forward_cases l r s <;> rw [heq, hfull] <;> rfl

theorem sameButLabels_forward_setQuota (l : Label) (r : Record) (q : BitVec 8) :
    sameButLabels (.next ((State.forward l r { s with evLog := ev }).setQuota q))
      (.next ((s.forward l r).setQuota q)) := by
  have h : (State.forward l r { s with evLog := ev }).withoutLabels = (s.forward l r).withoutLabels := by
    rw [State.forward_withoutLabels, State.forward_withoutLabels]
    rfl
  exact congrArg (fun u => Host.Outcome.next (u.setQuota q)) h

theorem sameButLabels_execFwdEdge (a b c d : Byte) :
    sameButLabels (execFwdEdge a b c d { s with evLog := ev }) (execFwdEdge a b c d s) :=
  sameButLabels_withOutSlot s ev (sameButLabels_forward_setQuota s ev ..)

theorem sameButLabels_execFwdTick (a b c : Byte) :
    sameButLabels (execFwdTick a b c { s with evLog := ev }) (execFwdTick a b c s) := by
  unfold execFwdTick
  split
  · rfl
  · exact sameButLabels_withOutSlot s ev (sameButLabels_forward_setQuota s ev ..)

theorem sameButLabels_applyPolicy (r : Record) :
    sameButLabels (applyPolicy r { s with evLog := ev }) (applyPolicy r s) := by
  unfold applyPolicy
  split
  · exact sameButLabels_execFwdTick s ev ..
  · exact sameButLabels_execFwdEdge s ev ..

theorem sameButLabels_execFormat : sameButLabels (execFormat { s with evLog := ev }) (execFormat s) := by
  refine sameButLabels_whenEnabled s ev ?_
  dsimp only [State.curByte, State.popOut]
  split
  · rfl
  · split
    · cases ringEmpty s.outHead.toNat s.outTail.toNat with
      | true => rfl
      | false => exact sameButLabels_withOutSlot s ev rfl
    · rfl

theorem sameButLabels_execTx (r : Bool) : sameButLabels (execTx r { s with evLog := ev }) (execTx r s) := by
  refine sameButLabels_whenEnabled s ev ?_
  dsimp only [State.curByte]
  split
  · rfl
  · split
    · rfl
    · cases r <;> rfl

/-- No operation reads EVLOG. -/
theorem sameButLabels_exec (i : Instr) : sameButLabels (exec i { s with evLog := ev }) (exec i s) := by
  cases i with
  | init => rfl
  | pin | enterE | enterT | rdport | rdtlo | rdthi | drChk | service => exact sameButLabels_whenEnabled s ev rfl
  | tmr n =>
    refine sameButLabels_whenEnabled s ev ?_
    rw [State.ticks_eq, State.ticks_eq]
    rfl
  | commit =>
    refine sameButLabels_whenEnabled s ev (sameButLabels_withInSlot s ev ?_)
    rw [State.noteOverrun_frame, State.noteOverrun_frame s]
    rfl
  | drRd k =>
    refine sameButLabels_whenEnabled s ev ?_
    split
    · exact sameButLabels_withInSlot s ev rfl
    · rfl
  | drFwd =>
    refine sameButLabels_whenEnabled s ev ?_
    split
    · exact sameButLabels_andThen_setMph (sameButLabels_applyPolicy s.advanceInTail ev _)
    · rfl
  | format => exact sameButLabels_execFormat s ev
  | tx r => exact sameButLabels_execTx s ev r
  | fwdTick a b c => exact sameButLabels_execFwdTick s ev a b c
  | fwdEdge a b c d => exact sameButLabels_execFwdEdge s ev a b c d

end

/-! ### What DR.FWD does with a record that is lost (41_drain_rate_limiter.md R153 to R155) -/

variable {s t : State} {i : Instr} {r : Record} {l : Label}

theorem applyPolicy_of_edge (hkind : r.kind ≠ 0x00) :
    applyPolicy r s = execFwdEdge r.tsLo r.tsHi r.port r.kind s := by
  rw [applyPolicy_eq_exec_of_kind, if_neg hkind, exec]

theorem applyPolicy_of_tick (hkind : r.kind = 0x00) : applyPolicy r s = execFwdTick r.tsLo r.tsHi r.port s := by
  rw [applyPolicy_eq_exec_of_kind, if_pos hkind, exec]

theorem applyPolicy_of_execDrFwd (hne : s.mNe = true) (h : execDrFwd s = .next t) :
    ∃ u, applyPolicy s.mRec s.advanceInTail = .next u ∧ u.setMph mFmt = t := by
  obtain ⟨_, ⟨_, hu⟩ | ⟨hne', _⟩⟩ := execDrFwd_next.1 h
  · exact hu
  · exact absurd (hne.symm.trans hne') (by decide)

/-- An edge record dropped on a full ring restores the quota. -/
theorem execDrFwd_dropped_edge (hne : s.mNe = true) (hkind : s.mRec.kind ≠ 0x00)
    (hfull : (s.outHead.toNat + 1) % s.cfg.outSlots = s.outTail.toNat) (h : execDrFwd s = .next t) :
    t = ((s.advanceInTail.emitEv .outDropEdge).setQuota s.cfg.tickQuotaMax).setMph mFmt := by
  obtain ⟨u, hu, rfl⟩ := applyPolicy_of_execDrFwd hne h
  rw [applyPolicy_of_edge hkind] at hu
  obtain ⟨_, rfl⟩ := execFwdEdge_next.1 hu
  rw [State.forward_of_outFull (s := s.advanceInTail) hfull]
  rfl

/-- A tick record dropped on a full ring spends one unit of quota. -/
theorem execDrFwd_dropped_tick (hne : s.mNe = true) (hkind : s.mRec.kind = 0x00) (hquota : s.quota ≠ 0)
    (hfull : (s.outHead.toNat + 1) % s.cfg.outSlots = s.outTail.toNat) (h : execDrFwd s = .next t) :
    t = ((s.advanceInTail.emitEv .outDropTick).setQuota (s.quota - 1)).setMph mFmt := by
  obtain ⟨u, hu, rfl⟩ := applyPolicy_of_execDrFwd hne h
  rw [applyPolicy_of_tick hkind] at hu
  obtain ⟨hzero, _⟩ | ⟨_, _, rfl⟩ := execFwdTick_next.1 hu
  · exact absurd hzero hquota
  · rw [State.forward_of_outFull (s := s.advanceInTail) hfull]
    rfl

/-- A throttled tick record is dropped before the push. -/
theorem execDrFwd_throttled (hne : s.mNe = true) (hkind : s.mRec.kind = 0x00) (hquota : s.quota = 0)
    (h : execDrFwd s = .next t) : t = (s.advanceInTail.emitEv .tickThrottled).setMph mFmt := by
  obtain ⟨u, hu, rfl⟩ := applyPolicy_of_execDrFwd hne h
  rw [applyPolicy_of_tick hkind] at hu
  obtain ⟨_, rfl⟩ | ⟨hnot, _⟩ := execFwdTick_next.1 hu
  · rfl
  · exact absurd hquota hnot

/-! ### What COMMIT and TX do with their loss -/

/-- On a full ring COMMIT stores its record and the ring reads as empty (20_memory.md R75). -/
theorem execCommit_overrun (hfull : (s.inHead.toNat + 1) % s.cfg.inSlots = s.inTail.toNat)
    (h : execCommit s = .next t) :
    t.readRecord (s.cfg.inBase + 4 * s.inHead.toNat) = s.captured ∧ t.inHead = t.inTail := by
  obtain ⟨he, hslot, _⟩ := execCommit_next.1 h
  obtain rfl : s.committed = t := by simpa [execCommit_eq (handlerAt_iff.1 he) hslot] using h
  have hnext : nextIndex s.cfg.inSlots s.inHead = s.inTail := by
    rw [nextIndex, hfull, BitVec.ofNat_toNat, BitVec.setWidth_eq]
  exact ⟨s.readRecord_committed, hnext⟩

/-- TX with text and no ready transport sends nothing (43_transmitter.md R186). -/
theorem execTx_stalled (htext : s.curByte ≠ some termByte) (h : execTx false s = .next t) :
    t = (s.emitEv .txStall).setMph mSvc := by
  obtain ⟨_, b, hb, ⟨rfl, _⟩ | ⟨_, hr, _⟩ | ⟨_, _, rfl⟩⟩ := execTx_next.1 h
  · exact absurd hb htext
  · exact absurd hr (by decide)
  · rfl

/-! ### The label a step appends -/

/-- The label DR.FWD emits for a popped record: with the output ring full that of the record's class, and for a tick
with the quota spent its own. -/
def policyLabel (r : Record) (s : State) : Option Label :=
  if r.kind = 0x00 then
    if s.quota = 0 then some .tickThrottled else if s.outFull then some .outDropTick else none
  else if s.outFull then some .outDropEdge else none

/-- The label a step emits, if any. -/
def lossLabel (i : Instr) (s : State) : Option Label :=
  match i with
  | .commit => if s.inFull then some .inOverrun else none
  | .drFwd => if s.mNe then policyLabel s.mRec s else none
  | .tx false => if s.curByte = some termByte then none else some .txStall
  | _ => none

theorem State.forward_evLog (l : Label) (r : Record) (s : State) :
    (s.forward l r).evLog = s.evLog ++ (if s.outFull then some l else none).toList := by
  obtain ⟨hfull, heq⟩ | ⟨hfull, heq⟩ := State.forward_cases l r s <;> simp [heq, hfull]

theorem applyPolicy_evLog (h : applyPolicy r s = .next t) : t.evLog = s.evLog ++ (policyLabel r s).toList := by
  by_cases hkind : r.kind = 0x00
  · rw [policyLabel, if_pos hkind]
    rw [applyPolicy_of_tick hkind] at h
    obtain ⟨hquota, rfl⟩ | ⟨hquota, _, rfl⟩ := execFwdTick_next.1 h
    · rw [if_pos hquota]
      rfl
    · rw [if_neg hquota, State.setQuota_evLog, State.forward_evLog]
  · rw [policyLabel, if_neg hkind]
    rw [applyPolicy_of_edge hkind] at h
    obtain ⟨_, rfl⟩ := execFwdEdge_next.1 h
    rw [State.setQuota_evLog, State.forward_evLog]

theorem execDrFwd_evLog (h : execDrFwd s = .next t) : t.evLog = s.evLog ++ (lossLabel .drFwd s).toList := by
  obtain ⟨_, ⟨hne, u, hu, rfl⟩ | ⟨hne, rfl⟩⟩ := execDrFwd_next.1 h
  · rw [lossLabel, if_pos hne]
    exact (applyPolicy_evLog hu :)
  · simp [lossLabel, hne]

theorem execTx_evLog {b : Bool} (h : execTx b s = .next t) : t.evLog = s.evLog ++ (lossLabel (.tx b) s).toList := by
  obtain ⟨_, c, hc, ⟨hterm, rfl⟩ | ⟨_, rfl, rfl⟩ | ⟨htext, rfl, rfl⟩⟩ := execTx_next.1 h
  · cases b <;> simp [lossLabel, hc, hterm]
  · simp [lossLabel]
  · simp [lossLabel, hc, htext]

/-- A step other than INIT appends its label to EVLOG and nothing else. -/
theorem exec_evLog (hstep : i.isStep) (hi : i ≠ .init) (h : exec i s = .next t) :
    t.evLog = s.evLog ++ (lossLabel i s).toList := by
  cases i with
  | init => exact absurd rfl hi
  | fwdTick | fwdEdge => exact absurd rfl hstep
  | commit =>
    obtain ⟨_, _, rfl⟩ := execCommit_next.1 h
    rw [State.returnFromHandler_evLog, State.pushIn_evLog, State.noteOverrun, lossLabel]
    split <;> simp
  | drFwd => exact execDrFwd_evLog h
  | tx b => exact execTx_evLog h
  | pin | tmr =>
    have hlog : t.evLog = s.evLog := (congrArg State.evLog (exec_env_frame rfl h) :)
    simp [hlog, lossLabel]
  | enterE =>
    obtain ⟨_, rfl⟩ := execEnterE_next.1 h
    simp [lossLabel]
  | enterT =>
    obtain ⟨_, rfl⟩ := execEnterT_next.1 h
    simp [lossLabel]
  | rdport =>
    obtain ⟨_, rfl⟩ := execRdport_next.1 h
    simp [lossLabel]
  | rdtlo =>
    obtain ⟨_, rfl⟩ := execRdtlo_next.1 h
    simp [lossLabel]
  | rdthi =>
    obtain ⟨_, rfl⟩ := execRdthi_next.1 h
    simp [lossLabel]
  | drChk =>
    obtain ⟨_, rfl⟩ := execDrChk_next.1 h
    simp [lossLabel]
  | drRd k =>
    obtain ⟨_, ⟨_, _, rfl⟩ | ⟨_, rfl⟩⟩ := execDrRd_next.1 h <;> simp [lossLabel]
  | format =>
    obtain ⟨_, _, _, ⟨_, r, u, hpop, _, rfl⟩ | ⟨_, rfl⟩⟩ := execFormat_next.1 h
    · obtain rfl := State.popOut_eq_some hpop
      simp [lossLabel]
    · simp [lossLabel]
  | service =>
    obtain ⟨_, rfl⟩ := execService_next.1 h
    simp [lossLabel]

/-- The table of R211: the operation and the condition each label is emitted under. -/
def lossCondition (i : Instr) (s : State) : Label → Prop
  | .inOverrun => i = .commit ∧ (s.inHead.toNat + 1) % s.cfg.inSlots = s.inTail.toNat
  | .outDropEdge => (i = .drFwd ∧ s.mNe = true) ∧ s.mRec.kind ≠ 0x00 ∧
      (s.outHead.toNat + 1) % s.cfg.outSlots = s.outTail.toNat
  | .outDropTick => (i = .drFwd ∧ s.mNe = true) ∧ s.mRec.kind = 0x00 ∧ s.quota ≠ 0 ∧
      (s.outHead.toNat + 1) % s.cfg.outSlots = s.outTail.toNat
  | .tickThrottled => (i = .drFwd ∧ s.mNe = true) ∧ s.mRec.kind = 0x00 ∧ s.quota = 0
  | .txStall => i = .tx false ∧ s.curByte ≠ some termByte

theorem lossLabel_eq_some_iff : lossLabel i s = some l ↔ lossCondition i s l := by
  cases i with
  | commit => cases l <;> simp [lossLabel, lossCondition, State.inFull_iff]
  | drFwd => cases l <;> simp [lossLabel, lossCondition, policyLabel, ite_eq_iff, State.outFull_iff]
  | tx b => cases b <;> cases l <;> simp [lossLabel, lossCondition]
  | init | pin | tmr | enterE | enterT | rdport | rdtlo | rdthi | drChk | drRd | format | service | fwdTick
    | fwdEdge => cases l <;> simp [lossLabel, lossCondition]

/-- Settles O55: no operation reads EVLOG (`sameButLabels_exec`), a step appends `lossLabel` (`exec_evLog`), which is
the label whose row of R211's table applies (`lossLabel_eq_some_iff`), and each loss leaves a known state. -/
theorem lossLabels : Obligations.LossLabels := by
  refine ⟨rfl, fun s i ev => sameButLabels_exec s ev i, ?_⟩
  intro s t i hstep hi h full pops cond
  have hlog := exec_evLog hstep hi h
  have hcond (l : Label) : cond l ↔ lossLabel i s = some l := by
    rw [lossLabel_eq_some_iff]
    cases l <;> rfl
  refine ⟨fun l => ?_, fun hnone => ?_, ?_, ?_, ?_, ?_, ?_⟩
  · rw [hcond, hlog, List.append_cancel_left_eq, Option.toList_eq_singleton_iff]
  · have hl : lossLabel i s = none := Option.eq_none_iff_forall_ne_some.2 fun l hl => hnone l ((hcond l).2 hl)
    rw [hlog, hl, Option.toList_none, List.append_nil]
  · rintro ⟨rfl, hfull⟩
    exact execCommit_overrun hfull h
  · rintro ⟨⟨rfl, hne⟩, hkind, hfull⟩
    obtain rfl := execDrFwd_dropped_edge hne hkind hfull h
    simp
  · rintro ⟨⟨rfl, hne⟩, hkind, hquota, hfull⟩
    obtain rfl := execDrFwd_dropped_tick hne hkind hquota hfull h
    simp
  · rintro ⟨⟨rfl, hne⟩, hkind, hquota⟩
    obtain rfl := execDrFwd_throttled hne hkind hquota h
    simp
  · rintro ⟨rfl, htext⟩
    obtain rfl := execTx_stalled htext h
    simp

end Sys2Proof.Machine
end

section
/-! The statement of 70_reset_and_hazards.md R240: before the first INIT only INIT runs. -/

namespace Sys2Proof.Machine

/-- Settles O13: INIT has no condition (`execInit_next`); every other operation needs IE = 1
(`enabled_of_ie_false`), and a step that is not enabled is refused by IE's value (`exec_of_not_enabled`). -/
theorem onlyInitBeforeStart : Obligations.OnlyInitBeforeStart := by
  refine fun s hie => ⟨⟨s.initialize, execInit_next.2 rfl⟩, fun i hstep hi => ?_⟩
  have hdisabled : enabled i s = false := enabled_of_ie_false hi hie
  exact ⟨hdisabled, by simp [exec_of_not_enabled hstep hdisabled, hie]⟩

end Sys2Proof.Machine
end

section
/-! SUPPORT and the statements of 30_encoding.md sections 2 to 4 about single words and bytes: the bytes of a word
give it back, a record and its 32-bit form determine each other, and no text byte is the marker. -/

namespace Sys2Proof.Machine

/-! ### Words (R100, R107) -/

/-- Settles O1: each word's fields are read off the table. -/
theorem tableWordsDecode : Obligations.TableWordsDecode := by
  unfold Obligations.TableWordsDecode
  decide

/-- The two bytes of a step word, low byte first, decode as the word (log entry 9). -/
theorem decode_bytes_step (w : Half) : decode (Encoded.step w).bytes = decodeStep w := by
  have hjoin : w.extractLsb' 8 8 ++ w.extractLsb' 0 8 = w := by
    rw [BitVec.extractLsb'_append_extractLsb'_eq_extractLsb' (by rfl)]
    exact BitVec.extractLsb'_eq_self
  exact congrArg decodeStep hjoin

/-- The bytes of a 32-bit value, from the highest, join to it (R101). -/
theorem Record.rec32_ofRec32 (w : BitVec 32) : (Record.ofRec32 w).rec32 = w := by
  simp only [Record.rec32, Record.ofRec32]
  rw [BitVec.extractLsb'_append_extractLsb'_eq_extractLsb' (by rfl),
    BitVec.extractLsb'_append_extractLsb'_eq_extractLsb' (by rfl),
    BitVec.extractLsb'_append_extractLsb'_eq_extractLsb' (by rfl)]
  exact BitVec.extractLsb'_eq_self

/-- The four bytes of a record in the order of its slot decode as its 32-bit form. -/
theorem decode_bytes_record (w : BitVec 32) : decode (Encoded.record w).bytes = .ok (decodeRecord w) :=
  congrArg (fun v => Except.ok (decodeRecord v)) (Record.rec32_ofRec32 w)

/-- A record decodes to the class of its kind byte (R102, R112). -/
theorem decodeRecord_rec32 (r : Record) : decodeRecord r.rec32 =
    if r.isTick then .fwdTick r.tsLo r.tsHi r.port else .fwdEdge r.tsLo r.tsHi r.port r.kind := by
  rw [decodeRecord_eq, Record.ofRec32_rec32]

/-- Settles O2: a step word decodes by its bytes as it does by its fields (`decodeStep_of_encode`), and a record class
is the word of the record it carries. -/
theorem decodeOfEncode : Obligations.DecodeOfEncode := by
  intro i hwf
  have step {w : Half} (henc : encode i = .step w) : decode (encode i).bytes = .ok i := by
    rw [henc, decode_bytes_step, decodeStep_of_encode hwf henc]
  cases i with
  | fwdTick lo hi port => exact (decode_bytes_record _).trans (congrArg _ (decodeRecord_rec32 ⟨lo, hi, port, 0⟩))
  | fwdEdge lo hi port kind =>
    have hkind : ¬ (⟨lo, hi, port, kind⟩ : Record).isTick = true := by
      simpa [Record.isTick, Instr.wellFormed] using hwf
    exact (decode_bytes_record _).trans
      (congrArg _ ((decodeRecord_rec32 ⟨lo, hi, port, kind⟩).trans (if_neg hkind)))
  | init | pin | tmr | enterE | enterT | rdport | rdtlo | rdthi | commit | drChk | drRd | drFwd | format | tx
    | service => exact step rfl

/-! ### Records (R101) -/

/-- Byte `k` of a record is its `k`-th byte from the lowest bits. -/
theorem Record.byte_ofRec32 (w : BitVec 32) (k : BitVec 2) :
    (Record.ofRec32 w).byte k = w.extractLsb' (8 * k.toNat) 8 := by
  obtain rfl | rfl | rfl | rfl := bitVec_two_cases k <;> rfl

/-- Settles O5: `Record.ofRec32` and `Record.rec32` are inverse, and the first takes the bytes apart in order. -/
theorem recordBytes : Obligations.RecordBytes := by
  refine ⟨Record.ofRec32_rec32, Record.rec32_ofRec32, fun r k => ?_⟩
  rw [← Record.byte_ofRec32, Record.ofRec32_rec32]

/-! ### Text (R104, R108) -/

theorem hexDigit_toNat (n : BitVec 4) :
    (n.toNat ≤ 9 → (hexDigit n).toNat = 0x30 + n.toNat) ∧
      (10 ≤ n.toNat → (hexDigit n).toNat = 0x37 + n.toNat) := by
  revert n
  decide

theorem hexDigit_ne_termByte (n : BitVec 4) : hexDigit n ≠ termByte := by
  revert n
  decide

theorem flagDigit_ne_termByte (r : Record) : flagDigit r ≠ termByte := by
  unfold flagDigit
  split <;> decide

theorem lineStep_separator_ne_termByte (n cnt : Byte) : (lineStep n cnt).1 ≠ termByte := by
  unfold lineStep
  split
  · exact (by decide : lineBreak ≠ termByte)
  · exact (by decide : sepSpace ≠ termByte)

/-- The eight text bytes of a token are digits, a flag digit and the separator: none is the marker. -/
theorem tokenText_ne_termByte (r : Record) {sep : Byte} (hsep : sep ≠ termByte) {j : Nat} (hj : j < 8) :
    (tokenText r sep)[j] ≠ termByte := by
  have digit := hexDigit_ne_termByte
  interval_cases j
  exacts [digit _, digit _, digit _, digit _, digit _, digit _, flagDigit_ne_termByte r, hsep]

/-- Settles O6: the digits are checked one by one, and no text byte of a token is the marker. -/
theorem hexDigitCharacters : Obligations.HexDigitCharacters :=
  ⟨hexDigit_toNat, fun r n cnt _ hj => tokenText_ne_termByte r (lineStep_separator_ne_termByte n cnt) hj⟩

end Sys2Proof.Machine
end

section
/-! SUPPORT and the statements about single steps: where a step runs (00_scope.md R13, 10_state.md R44), what it is
taken from and what it leaves of the schedule (log entries 1, 2, 10 and 12), how it moves the two phases (10_state.md
R30, R31), and when an access faults (log entry 6). -/

namespace Sys2Proof.Machine

variable {s t : State} {i : Instr}

/-! ### The invariant and the enabling conditions -/

/-- Settles O44: every update an operation is made of keeps the invariant (`exec_inv`), and so does the fetch. -/
theorem stepKeepsInvariant : Obligations.StepKeepsInvariant := fun _ _ => step_inv

/-- Settles O12: what runs is enabled (`enabled_of_exec`), and under the invariant what is enabled runs
(`exec_completes`). -/
theorem runsExactlyWhenEnabled : Obligations.RunsExactlyWhenEnabled := fun _ _ hs hi =>
  ⟨⟨fun ⟨_, h⟩ => enabled_of_exec hi h, exec_completes hs⟩, exec_of_not_enabled hi⟩

/-- MAIN's operations and the entries need H_IDLE (10_state.md R30). -/
theorem hph_of_enabled (hi : i.agent = .main ∨ i = .enterE ∨ i = .enterT) (h : enabled i s = true) :
    s.hph = hIdle := by
  obtain hm | rfl | rfl := hi
  · cases i with
    | drChk | drRd | drFwd | format | tx | service =>
      obtain ⟨_, hhph, _⟩ := mainAt_iff.1 h
      exact hhph
    | init | pin | tmr | enterE | enterT | rdport | rdtlo | rdthi | commit | fwdTick | fwdEdge =>
      simp [Instr.agent] at hm
  · obtain ⟨_, hhph, _⟩ := enabled_enterE_iff.1 h
    exact hhph
  · obtain ⟨_, hhph, _⟩ := enabled_enterT_iff.1 h
    exact hhph

/-- Settles O25: with a handler running none of these is enabled (`hph_of_enabled`). -/
theorem handlerExcludesMainAndEntry : Obligations.HandlerExcludesMainAndEntry := by
  intro s i hhph hi
  have hstep : i.isStep := by
    obtain hm | rfl | rfl := hi
    · simp [Instr.isStep, hm]
    · decide
    · decide
  exact exec_of_not_enabled hstep (Bool.eq_false_iff.2 fun he => hhph (hph_of_enabled hi he))

/-! ### Where a step comes from (log entries 1, 10 and 12) -/

/-- Settles O8: the fetch decodes the first word of the script. -/
theorem stepRunsDecodedWord : Obligations.StepRunsDecodedWord := by
  refine fun s w rest hs => ⟨fun i hw => ?_, fun e hw => step_of_decodeStep_error hs hw⟩
  exact step_of_fetch (by simp [fetch, hs, hw])

theorem wellFormed_of_enabled (h : enabled i s = true) : i.wellFormed = true := by
  cases i with
  | tmr n => exact bne_iff_ne.2 (enabled_tmr_iff.1 h).2
  | fwdTick | fwdEdge => exact absurd rfl (isStep_of_enabled h)
  | init | pin | enterE | enterT | rdport | rdtlo | rdthi | commit | drChk | drRd | drFwd | format | tx | service => rfl

/-- With an empty script the fetch takes the drawn step and counts the draw. -/
theorem fetch_of_script_nil (h : s.script = []) : fetch s = .ok (drawnStep s, s.countDraw (drawnStep s)) := by
  simp [fetch, h]

/-- Settles O9: the drawn step is enabled (`drawnStep_enabled`), and only enabled steps are drawn. -/
theorem stepWithoutScriptIsEnabled : Obligations.StepWithoutScriptIsEnabled := fun s hs =>
  have he := drawnStep_enabled s
  ⟨drawnStep s, s.countDraw (drawnStep s), isStep_of_enabled he, wellFormed_of_enabled he, he, rfl,
    step_of_fetch (fetch_of_script_nil hs)⟩

/-- The registers `selectStep` sets enable the operation (log entry 10). -/
theorem enabled_selectStep (hstep : i.isStep) (hwf : i.wellFormed = true) (s : State) :
    enabled i (selectStep i s) = true := by
  cases i with
  | init | pin => rfl
  | tmr n => exact enabled_tmr_iff.2 ⟨rfl, bne_iff_ne.1 hwf⟩
  | enterE =>
    refine enabled_enterE_iff.2 ⟨rfl, rfl, ?_, fun hprio => if_pos hprio⟩
    show (if s.eif = 0 then 1 else s.eif) ≠ 0
    split
    · decide
    · assumption
  | enterT => exact enabled_enterT_iff.2 ⟨rfl, rfl, rfl, fun hprio => if_pos hprio⟩
  | rdport | rdtlo | rdthi | commit => exact handlerAt_iff.2 ⟨rfl, rfl⟩
  | drChk | drRd | drFwd | format | tx | service => exact mainAt_iff.2 ⟨rfl, rfl, rfl⟩
  | fwdTick | fwdEdge => exact absurd rfl hstep

/-- No enabling condition reads the script. -/
theorem enabled_script (i : Instr) (s : State) (ws : List Half) : enabled i { s with script := ws } = enabled i s := by
  cases i <;> rfl

/-- A placed word stands at the head of the script with its operation selected. -/
theorem withFetchWord_of_decodeStep {w : Half} (hw : decodeStep w = .ok i) (s : State) :
    s.withFetchWord 16 w.toNat = { selectStep i s with script := w :: s.script } := by
  have hword : tableWord 16 w.toNat = some (.step w) := by simp [tableWord, w.isLt]
  simp [State.withFetchWord, placeWord, placeStep, hword, hw]

/-- Settles O10: the word decodes to the operation (`decodeStep_of_encode`), which `selectStep` enables. -/
theorem placedWordRuns : Obligations.PlacedWordRuns := by
  intro s i w hstep hwf henc
  have hw := decodeStep_of_encode hwf henc
  rw [withFetchWord_of_decodeStep hw]
  exact ⟨(enabled_script ..).trans (enabled_selectStep hstep hwf s), (stepRunsDecodedWord _ w s.script rfl).1 i hw⟩

/-! ### What an operation leaves of the schedule (log entries 1, 2 and 12) -/

/-- Settles O56: INIT draws and leaves the rest, and the frame of every other agent leaves all five items. -/
theorem operationsKeepSchedule : Obligations.OperationsKeepSchedule := by
  intro s t i h
  by_cases hi : i = .init
  · subst hi
    obtain rfl := execInit_next.1 h
    exact ⟨rfl, rfl, rfl, fun hne => absurd rfl hne⟩
  have of_frame {u : State} (hf : t = u) (hu : u.script = s.script ∧ u.cfg = s.cfg ∧ u.waited = s.waited ∧
      u.draws = s.draws ∧ u.memDraw = s.memDraw) : t.script = s.script ∧ t.cfg = s.cfg ∧ t.waited = s.waited ∧
      (i ≠ .init → t.draws = s.draws ∧ t.memDraw = s.memDraw) := by
    obtain ⟨hscript, hcfg, hwaited, hdraws⟩ := hu
    exact hf ▸ ⟨hscript, hcfg, hwaited, fun _ => hdraws⟩
  obtain ha | ha | ha := Instr.agent_cases hi
  · exact of_frame (exec_env_frame ha h) ⟨rfl, rfl, rfl, rfl, rfl⟩
  · exact of_frame (exec_isr_sameOutsideCapture ha h).1 ⟨rfl, rfl, rfl, rfl, rfl⟩
  · exact of_frame (exec_main_sameForCapture ha h).1 ⟨rfl, rfl, rfl, rfl, rfl⟩

/-! ### The phase of the capture unit (10_state.md R30, 40_capture_handlers.md R140) -/

/-- A capture operation moves HPH to the next of its five phases. -/
theorem exec_isr_hph (ha : i.agent = .isr) (h : exec i s = .next t) :
    t.hph.toNat = (s.hph.toNat + 1) % 5 ∧ s.hph.toNat ≤ 4 := by
  cases i with
  | enterE =>
    obtain ⟨he, rfl⟩ := execEnterE_next.1 h
    obtain ⟨_, hp, _⟩ := enabled_enterE_iff.1 he
    simp [hp]
  | enterT =>
    obtain ⟨he, rfl⟩ := execEnterT_next.1 h
    obtain ⟨_, hp, _⟩ := enabled_enterT_iff.1 he
    simp [hp]
  | rdport =>
    obtain ⟨he, rfl⟩ := execRdport_next.1 h
    obtain ⟨_, hp⟩ := handlerAt_iff.1 he
    simp [hp]
  | rdtlo =>
    obtain ⟨he, rfl⟩ := execRdtlo_next.1 h
    obtain ⟨_, hp⟩ := handlerAt_iff.1 he
    simp [hp]
  | rdthi =>
    obtain ⟨he, rfl⟩ := execRdthi_next.1 h
    obtain ⟨_, hp⟩ := handlerAt_iff.1 he
    simp [hp]
  | commit =>
    obtain ⟨he, _, rfl⟩ := execCommit_next.1 h
    obtain ⟨_, hp⟩ := handlerAt_iff.1 he
    simp [hp]
  | init | pin | tmr | drChk | drRd | drFwd | format | tx | service | fwdTick | fwdEdge => simp [Instr.agent] at ha

/-- No other operation but INIT moves HPH. -/
theorem exec_hph_of_not_isr (ha : i.agent ≠ .isr) (hi : i ≠ .init) (h : exec i s = .next t) : t.hph = s.hph := by
  obtain he | hc | hm := Instr.agent_cases hi
  · exact (congrArg State.hph (exec_env_frame he h) :)
  · exact absurd hc ha
  · exact (congrArg State.hph (exec_main_sameForCapture hm h).1 :)

/-- Settles O26: the phase each capture operation needs and leaves, and the frames of the other agents. -/
theorem handlerIsFiveSteps : Obligations.HandlerIsFiveSteps := fun _ _ _ h =>
  ⟨fun ha => exec_isr_hph ha h, fun ha hi => exec_hph_of_not_isr ha hi h⟩

/-! ### The phase of MAIN (10_state.md R31) -/

/-- The phase at which a MAIN operation is enabled. -/
def mainPhase : Instr → BitVec 4
  | .drRd k => mRd0 + k.zeroExtend 4
  | .drFwd => mFwd
  | .format => mFmt
  | .tx _ => mTx
  | .service => mSvc
  | _ => mChk

theorem enabled_main_iff (ha : i.agent = .main) : enabled i s = true ↔ s.mainReady (mainPhase i) := by
  cases i with
  | drChk | drRd | drFwd | format | tx | service => exact mainAt_iff
  | init | pin | tmr | enterE | enterT | rdport | rdtlo | rdthi | commit | fwdTick | fwdEdge => simp [Instr.agent] at ha

/-- `mainOp` and `mainPhase` are inverse, but for the readiness a TX samples. -/
theorem exists_mainOp_iff (ha : i.agent = .main) (p : BitVec 4) : (∃ r, mainOp r p = some i) ↔ p = mainPhase i := by
  revert p
  cases i with
  | drChk | drFwd | format | service => decide
  | drRd k => revert k; decide
  | tx r => revert r; decide
  | init | pin | tmr | enterE | enterT | rdport | rdtlo | rdthi | commit | fwdTick | fwdEdge => simp [Instr.agent] at ha

/-- Every phase in range has its MAIN operation. -/
theorem mainOp_of_le (r : Bool) {p : BitVec 4} (hp : p ≤ mSvc) : ∃ i, mainOp r p = some i ∧ i.agent = .main := by
  have hall : ∀ (r : Bool) (p : BitVec 4), p ≤ mSvc → (mainOp r p).any (·.agent == .main) = true := by decide
  obtain ⟨i, hi, ha⟩ := (Option.any_eq_true _ _).1 (hall r p hp)
  exact ⟨i, hi, by simpa using ha⟩

/-- A MAIN operation moves MPH to the next of its nine phases. -/
theorem exec_main_mph (ha : i.agent = .main) (h : exec i s = .next t) : t.mph.toNat = (s.mph.toNat + 1) % 9 := by
  have hstep : i.isStep := by simp [Instr.isStep, ha]
  obtain ⟨_, _, hp⟩ := (enabled_main_iff ha).1 (enabled_of_exec hstep h)
  cases i with
  | drChk =>
    obtain ⟨_, rfl⟩ := execDrChk_next.1 h
    simp [hp, mainPhase]
  | drRd k =>
    have hlt : s.mph.toNat = 1 + k.toNat := eq_mRd_iff.1 hp
    have hnext : (s.mph + 1).toNat = (s.mph.toNat + 1) % 9 := by
      have hk := k.isLt
      rw [mph_succ_toNat hlt, Nat.mod_eq_of_lt (by omega)]
    obtain ⟨_, ⟨_, _, rfl⟩ | ⟨_, rfl⟩⟩ := execDrRd_next.1 h <;> exact hnext
  | drFwd => obtain ⟨_, ⟨_, u, _, rfl⟩ | ⟨_, rfl⟩⟩ := execDrFwd_next.1 h <;> simp [hp, mainPhase]
  | format => obtain ⟨_, _, _, ⟨_, r, u, _, _, rfl⟩ | ⟨_, rfl⟩⟩ := execFormat_next.1 h <;> simp [hp, mainPhase]
  | tx r =>
    obtain ⟨_, _, _, ⟨_, rfl⟩ | ⟨_, _, rfl⟩ | ⟨_, _, rfl⟩⟩ := execTx_next.1 h <;> simp [hp, mainPhase]
  | service =>
    obtain ⟨_, rfl⟩ := execService_next.1 h
    simp [hp, mainPhase]
  | init | pin | tmr | enterE | enterT | rdport | rdtlo | rdthi | commit | fwdTick | fwdEdge => simp [Instr.agent] at ha

/-- Settles O51: the phase in range has an operation (`mainOp_of_le`), it alone is enabled there (`enabled_main_iff`,
`exists_mainOp_iff`), and what is enabled runs. -/
theorem mainNeverStuck : Obligations.MainNeverStuck := by
  intro s r hs hie hhph
  have ⟨_, _, _, _, ⟨_, hmph⟩, _⟩ := hs
  obtain ⟨i, hi, ha⟩ := mainOp_of_le r hmph
  have he : enabled i s = true := (enabled_main_iff ha).2 ⟨hie, hhph, (exists_mainOp_iff ha _).1 ⟨r, hi⟩⟩
  obtain ⟨t, h⟩ := exec_completes hs he
  refine ⟨i, t, hi, h, exec_main_mph ha h, fun j hj he => ?_⟩
  obtain ⟨_, _, hp⟩ := (enabled_main_iff hj).1 he
  exact (exists_mainOp_iff hj _).2 hp

/-! ### Accesses out of range (log entry 6) -/

/-- COMMIT faults where IN_HEAD is no slot. -/
theorem execCommit_fault (hready : s.handlerReady hCommit) (hslot : s.cfg.inSlots ≤ s.inHead.toNat) :
    execCommit s = .fault .noSuchSlot :=
  whenEnabled_eq_fault.2 ⟨handlerAt_iff.2 hready, withInSlot_eq_fault.2 (.inr ⟨hslot, rfl⟩)⟩

/-- DR.RD with a record at the tail faults where IN_TAIL is no slot. -/
theorem execDrRd_fault {k : BitVec 2} (he : enabled (.drRd k) s = true) (hne : s.mNe = true)
    (hslot : s.cfg.inSlots ≤ s.inTail.toNat) : execDrRd k s = .fault .noSuchSlot := by
  refine whenEnabled_eq_fault.2 ⟨he, ?_⟩
  rw [if_pos hne]
  exact withInSlot_eq_fault.2 (.inr ⟨hslot, rfl⟩)

/-- FWD.EDGE faults where OUT_HEAD is no slot. -/
theorem execFwdEdge_fault (hslot : s.cfg.outSlots ≤ s.outHead.toNat) (a b c d : Byte) :
    execFwdEdge a b c d s = .fault .noSuchSlot :=
  withOutSlot_eq_fault.2 (.inr ⟨hslot, rfl⟩)

/-- FWD.TICK with quota left faults where OUT_HEAD is no slot. -/
theorem execFwdTick_fault (hslot : s.cfg.outSlots ≤ s.outHead.toNat) (hquota : s.quota ≠ 0) (a b c : Byte) :
    execFwdTick a b c s = .fault .noSuchSlot := by
  rw [execFwdTick, if_neg hquota]
  exact withOutSlot_eq_fault.2 (.inr ⟨hslot, rfl⟩)

/-- FORMAT faults where it pops and OUT_TAIL is no slot. -/
theorem execFormat_fault_slot (hready : s.mainReady mFmt) (hb : s.curByte = some termByte)
    (hne : s.outHead ≠ s.outTail) (hslot : s.cfg.outSlots ≤ s.outTail.toNat) :
    execFormat s = .fault .noSuchSlot := by
  refine whenEnabled_eq_fault.2 ⟨mainAt_iff.2 hready, ?_⟩
  rw [hb, State.popOut_eq_some_iff.2 ⟨hne, rfl, rfl⟩]
  exact withOutSlot_eq_fault.2 (.inr ⟨hslot, rfl⟩)

/-- Past the end of TXBUF there is no byte. -/
theorem State.curByte_eq_none (hcur : 9 ≤ s.cur.toNat) : s.curByte = none :=
  Vector.getElem?_eq_none hcur

/-- FORMAT faults with CUR past the end of TXBUF. -/
theorem execFormat_fault_cur (hready : s.mainReady mFmt) (hcur : 9 ≤ s.cur.toNat) :
    execFormat s = .fault .noSuchTextByte := by
  refine whenEnabled_eq_fault.2 ⟨mainAt_iff.2 hready, ?_⟩
  rw [State.curByte_eq_none hcur]

/-- TX faults with CUR past the end of TXBUF. -/
theorem execTx_fault (hready : s.mainReady mTx) (hcur : 9 ≤ s.cur.toNat) (r : Bool) :
    execTx r s = .fault .noSuchTextByte := by
  refine whenEnabled_eq_fault.2 ⟨mainAt_iff.2 hready, ?_⟩
  rw [State.curByte_eq_none hcur]

/-- Settles O54: each access is guarded by the bound of its index. -/
theorem outOfRangeAccessFaults : Obligations.OutOfRangeAccessFaults := fun _ =>
  ⟨execCommit_fault, fun _ => execDrRd_fault,
    fun hslot a b c d => ⟨execFwdEdge_fault hslot a b c d, fun hquota => execFwdTick_fault hslot hquota a b c⟩,
    execFormat_fault_slot, execFormat_fault_cur, execTx_fault⟩

end Sys2Proof.Machine
end

section
/-! SUPPORT and the statements of 10_state.md R43, R44, 20_memory.md R74, R75, 41_drain_rate_limiter.md R156 and
70_reset_and_hazards.md R243: the slots a ring holds as its indices advance, the records in them, and which of them
have been written. -/

namespace Sys2Proof.Machine

/-! ### The slots from tail to head (20_memory.md R70) -/

section

variable {S h t i : Nat}

theorem mod_eq_of_lt_two_mul {n : Nat} (hn : n < 2 * S) : n % S = if n < S then n else n - S := by
  split
  · next hlt => exact Nat.mod_eq_of_lt hlt
  · next hge => rw [Nat.mod_eq_sub_mod (not_lt.1 hge), Nat.mod_eq_of_lt (by omega)]

/-- The index after one of the ring. -/
theorem next_eq (hh : h < S) : (h + 1) % S = if h + 1 < S then h + 1 else 0 := by
  rw [mod_eq_of_lt_two_mul (by omega)]
  split <;> omega

theorem ringCount_eq (hh : h < S) (ht : t < S) : ringCount S h t = if t ≤ h then h - t else h + S - t := by
  rw [ringCount, mod_eq_of_lt_two_mul (by omega)]
  split <;> split <;> omega

theorem ringCount_lt (hS : 0 < S) : ringCount S h t < S := Nat.mod_lt _ hS

@[simp] theorem ringCount_self (S t : Nat) : ringCount S t t = 0 := by
  rw [ringCount, Nat.add_sub_cancel_left, Nat.mod_self]

/-- A ring is full when it holds all slots but one (R70, R74). -/
theorem ringFull_iff_ringCount (hh : h < S) (ht : t < S) : (h + 1) % S = t ↔ ringCount S h t + 1 = S := by
  rw [next_eq hh, ringCount_eq hh ht]
  split <;> split <;> omega

theorem ringCount_push (hh : h < S) (ht : t < S) (hroom : (h + 1) % S ≠ t) :
    ringCount S ((h + 1) % S) t = ringCount S h t + 1 := by
  rw [ringCount_eq (Nat.mod_lt _ (by omega)) ht, ringCount_eq hh ht]
  rw [next_eq hh] at hroom ⊢
  by_cases hlt : h + 1 < S
  · simp only [hlt, if_true] at hroom ⊢
    split <;> split <;> omega
  · simp only [hlt, if_false] at hroom ⊢
    split <;> split <;> omega

theorem ringCount_pop (hh : h < S) (ht : t < S) (hne : h ≠ t) :
    ringCount S h t = ringCount S h ((t + 1) % S) + 1 := by
  rw [ringCount_eq hh (Nat.mod_lt _ (by omega)), ringCount_eq hh ht, next_eq ht]
  split <;> split <;> split <;> omega

/-- The head lies one count after the tail. -/
theorem tail_add_ringCount (hh : h < S) (ht : t < S) : (t + ringCount S h t) % S = h := by
  rw [ringCount_eq hh ht, mod_eq_of_lt_two_mul (by split <;> omega)]
  split <;> split <;> omega

@[simp] theorem ringSlots_self (S t : Nat) : ringSlots S t t = [] := by simp [ringSlots]

@[simp] theorem ringSlots_length (S h t : Nat) : (ringSlots S h t).length = ringCount S h t := by simp [ringSlots]

/-- A push adds its slot at the end. -/
theorem ringSlots_push (hh : h < S) (ht : t < S) (hroom : (h + 1) % S ≠ t) :
    ringSlots S ((h + 1) % S) t = ringSlots S h t ++ [h] := by
  rw [ringSlots, ringCount_push hh ht hroom, List.range_succ, List.map_append, List.map_singleton,
    tail_add_ringCount hh ht, ringSlots]

/-- A pop takes the slot at the tail. -/
theorem ringSlots_pop (hh : h < S) (ht : t < S) (hne : h ≠ t) :
    ringSlots S h t = t :: ringSlots S h ((t + 1) % S) := by
  have hrest (j : Nat) : (t + (j + 1)) % S = ((t + 1) % S + j) % S := by
    rw [Nat.mod_add_mod, Nat.add_assoc, Nat.add_comm 1 j]
  rw [ringSlots, ringCount_pop hh ht hne, List.range_succ_eq_map, List.map_cons, List.map_map, Nat.add_zero,
    Nat.mod_eq_of_lt ht, ringSlots]
  exact congrArg _ (List.map_congr_left fun j _ => hrest j)

/-- The slots held are those whose distance from the tail is less than the head's. -/
theorem mem_ringSlots (ht : t < S) :
    i ∈ ringSlots S h t ↔ i < S ∧ ringCount S i t < ringCount S h t := by
  constructor
  · intro hi
    obtain ⟨j, hj, rfl⟩ := List.mem_map.1 hi
    have hj := List.mem_range.1 hj
    have hjS : j < S := hj.trans (ringCount_lt (by omega))
    have hlt : (t + j) % S < S := Nat.mod_lt _ (by omega)
    refine ⟨hlt, ?_⟩
    have hcount : ringCount S ((t + j) % S) t = j := by
      rw [ringCount_eq hlt ht, mod_eq_of_lt_two_mul (by omega)]
      split <;> split <;> omega
    rwa [hcount]
  · rintro ⟨hi, hlt⟩
    exact List.mem_map.2 ⟨ringCount S i t, List.mem_range.2 hlt, tail_add_ringCount hi ht⟩

theorem lt_of_mem_ringSlots (hS : 0 < S) (hi : i ∈ ringSlots S h t) : i < S := by
  obtain ⟨j, _, rfl⟩ := List.mem_map.1 hi
  exact Nat.mod_lt _ hS

/-- The slot a push writes is none of those held. -/
theorem ne_head_of_mem_ringSlots (ht : t < S) (hi : i ∈ ringSlots S h t) : i ≠ h := by
  rintro rfl
  exact lt_irrefl _ ((mem_ringSlots ht).1 hi).2

/-- The tail is held unless the ring is empty. -/
theorem tail_mem_ringSlots (hh : h < S) (ht : t < S) (hne : h ≠ t) : t ∈ ringSlots S h t := by
  rw [ringSlots_pop hh ht hne]
  exact List.mem_cons_self

/-- A full ring holds every slot but the one at its head. -/
theorem mem_ringSlots_of_full (hh : h < S) (ht : t < S) (hfull : (h + 1) % S = t) (hi : i < S) (hne : i ≠ h) :
    i ∈ ringSlots S h t := by
  refine (mem_ringSlots ht).2 ⟨hi, ?_⟩
  have hcount : ringCount S i t ≠ ringCount S h t := fun heq =>
    hne (by rw [← tail_add_ringCount hi ht, heq, tail_add_ringCount hh ht])
  have hlt : ringCount S i t < S := ringCount_lt (by omega)
  have hlast := (ringFull_iff_ringCount hh ht).1 hfull
  omega

/-- The slots held after a push, be it one that overruns: none is new but the one written. -/
theorem mem_ringSlots_push (hh : h < S) (ht : t < S) (hi : i ∈ ringSlots S ((h + 1) % S) t) :
    i ∈ ringSlots S h t ∨ i = h := by
  by_cases hfull : (h + 1) % S = t
  · simp [hfull] at hi
  · rw [ringSlots_push hh ht hfull] at hi
    simpa using hi

end

/-! ### Slots written since INIT (70_reset_and_hazards.md R243) -/

section

variable {m : Memory} {a b : Nat} {r : Record}

theorem Memory.slotWritten_iff : m.slotWritten a = true ↔ ∀ k < 4, (m.byteAt (a + k)).isSome = true := by
  simp only [slotWritten, Bool.and_eq_true]
  constructor
  · rintro ⟨⟨⟨h0, h1⟩, h2⟩, h3⟩ k hk
    interval_cases k <;> assumption
  · exact fun h => ⟨⟨⟨h 0 (by omega), h 1 (by omega)⟩, h 2 (by omega)⟩, h 3 (by omega)⟩

theorem Memory.slotWritten_putRecord_same (m : Memory) (a : Nat) (r : Record) :
    (m.putRecord a r).slotWritten a = true := by
  obtain ⟨h0, h1, h2, h3⟩ := byteAt_putRecord m a r
  simp [slotWritten, h0, h1, h2, h3]

theorem Memory.slotWritten_putRecord (h : m.slotWritten b = true) : (m.putRecord a r).slotWritten b = true := by
  rw [slotWritten_iff] at h ⊢
  exact fun k hk => byteAt_put_isSome _ _ _ _ (byteAt_put_isSome _ _ _ _ (byteAt_put_isSome _ _ _ _
    (byteAt_put_isSome _ _ _ _ (h k hk))))

end

variable {s u v : State} {i : Instr} {r : Record}

/-- The slots of both queues have been written: R243 outside the input pop. -/
abbrev State.queuesWritten (s : State) : Prop :=
  (∀ i ∈ ringSlots s.cfg.inSlots s.inHead.toNat s.inTail.toNat,
      s.mem.slotWritten (inSlotAddr s.cfg i) = true) ∧
  (∀ i ∈ ringSlots s.cfg.outSlots s.outHead.toNat s.outTail.toNat,
      s.mem.slotWritten (outSlotAddr s.cfg i) = true)

theorem State.ringsWritten.queuesWritten (h : s.ringsWritten) : s.queuesWritten := by
  obtain ⟨hin, hout, _⟩ := h
  exact ⟨hin, hout⟩

/-- Outside the input pop R243 is about the queues alone. -/
theorem State.queuesWritten.ringsWritten (h : s.queuesWritten) (hmid : ¬ s.midPop) : s.ringsWritten := by
  obtain ⟨hin, hout⟩ := h
  exact ⟨hin, hout, fun hp => absurd hp hmid⟩

/-- A phase outside the input pop. -/
theorem State.queuesWritten.setMph {p : BitVec 4} (h : s.queuesWritten) (hp : ¬ (mRd0 ≤ p ∧ p ≤ mFwd)) :
    (s.setMph p).ringsWritten :=
  State.queuesWritten.ringsWritten (s := s.setMph p) h fun ⟨_, hmid⟩ => hp hmid

/-- With both rings empty there is nothing to read. -/
theorem State.ringsWritten_of_empty (hin : s.inHead = s.inTail) (hout : s.outHead = s.outTail)
    (hne : s.mNe = false) : s.ringsWritten := by
  refine State.queuesWritten.ringsWritten ⟨?_, ?_⟩ fun hmid => absurd (hmid.1.symm.trans hne) (by decide)
  · simp [hin]
  · simp [hout]

/-- Settles O15: the values of R43, read off `State.reset`. -/
theorem resetStateIsTheTable : Obligations.ResetStateIsTheTable := by
  unfold Obligations.ResetStateIsTheTable
  decide

/-- Settles O43: INIT leaves empty rings. -/
theorem initEstablishesInvariant : Obligations.InitEstablishesInvariant := by
  refine ⟨by decide, State.ringsWritten_of_empty rfl rfl rfl, fun s t hcfg h => ?_⟩
  obtain rfl := execInit_next.1 h
  exact ⟨State.initialize_inv hcfg, State.ringsWritten_of_empty rfl rfl rfl⟩

/-! What each update of a ring does to the slots written. -/

theorem State.Inv.nextIndex_in (hs : s.Inv) (j : BitVec 8) :
    (nextIndex s.cfg.inSlots j).toNat = (j.toNat + 1) % s.cfg.inSlots := by
  obtain ⟨hpos, hS⟩ := hs.inSlots_bounds
  exact nextIndex_toNat j hpos hS

theorem State.Inv.nextIndex_out (hs : s.Inv) (j : Half) :
    (nextIndex s.cfg.outSlots j).toNat = (j.toNat + 1) % s.cfg.outSlots := by
  obtain ⟨hpos, hS⟩ := hs.outSlots_bounds
  exact nextIndex_toNat j hpos hS

theorem State.queuesWritten.pushIn (hs : s.Inv) (h : s.queuesWritten) : (s.pushIn r).queuesWritten := by
  obtain ⟨hin, hout⟩ := h
  have ⟨_, _, ⟨hhead, htail, _⟩, _⟩ := hs
  refine ⟨fun i hi => ?_, fun i hi => Memory.slotWritten_putRecord (hout i hi)⟩
  rw [State.pushIn_inHead, hs.nextIndex_in] at hi
  obtain hi | rfl := mem_ringSlots_push hhead htail hi
  · exact Memory.slotWritten_putRecord (hin i hi)
  · exact Memory.slotWritten_putRecord_same ..

theorem State.queuesWritten.putOut (hs : s.Inv) (h : s.queuesWritten) : (s.putOut r).queuesWritten := by
  obtain ⟨hin, hout⟩ := h
  have ⟨_, _, ⟨_, _, hhead, htail⟩, _⟩ := hs
  refine ⟨fun i hi => Memory.slotWritten_putRecord (hin i hi), fun i hi => ?_⟩
  rw [State.putOut_outHead, hs.nextIndex_out] at hi
  obtain hi | rfl := mem_ringSlots_push hhead htail hi
  · exact Memory.slotWritten_putRecord (hout i hi)
  · exact Memory.slotWritten_putRecord_same ..

theorem State.queuesWritten.forward (hs : s.Inv) (l : Label) (h : s.queuesWritten) :
    (s.forward l r).queuesWritten := by
  obtain ⟨_, heq⟩ | ⟨_, heq⟩ := State.forward_cases l r s
  · exact heq ▸ h.putOut hs
  · exact heq ▸ h

theorem State.queuesWritten.applyPolicy (hs : s.Inv) (h : s.queuesWritten)
    (hu : Machine.applyPolicy r s = .next u) : u.queuesWritten := by
  by_cases hkind : r.kind = 0x00
  · rw [applyPolicy_of_tick hkind] at hu
    obtain ⟨_, rfl⟩ | ⟨_, _, rfl⟩ := execFwdTick_next.1 hu
    · exact h
    · exact h.forward hs _
  · rw [applyPolicy_of_edge hkind] at hu
    obtain ⟨_, rfl⟩ := execFwdEdge_next.1 hu
    exact h.forward hs _

/-- A pop of the output ring leaves fewer slots to read. -/
theorem State.queuesWritten.popOut (hs : s.Inv) (h : s.queuesWritten) (hpop : s.popOut = some (r, u)) :
    u.queuesWritten := by
  obtain ⟨hne, _, rfl⟩ := State.popOut_eq_some_iff.1 hpop
  obtain ⟨hin, hout⟩ := h
  have ⟨_, _, ⟨_, _, hhead, htail⟩, _⟩ := hs
  refine ⟨hin, fun i hi => hout i ?_⟩
  dsimp only at hi
  rw [hs.nextIndex_out] at hi
  rw [ringSlots_pop hhead htail fun heq => hne (BitVec.eq_of_toNat_eq heq)]
  exact List.mem_cons_of_mem _ hi

/-- The end of the input pop leaves fewer slots to read, or after an overrun in its middle (R246) slots that have all
been written. -/
theorem State.ringsWritten.advanceInTail (hs : s.Inv) (h : s.ringsWritten) (hmid : s.midPop) :
    s.advanceInTail.queuesWritten := by
  obtain ⟨hin, hout, hpop⟩ := h
  have ⟨_, _, ⟨hhead, htail, _⟩, _⟩ := hs
  refine ⟨fun i hi => ?_, hout⟩
  by_cases heq : s.inHead = s.inTail
  · exact (hpop hmid).2 heq i (lt_of_mem_ringSlots hs.inSlots_bounds.1 hi)
  · refine hin i ?_
    rw [State.advanceInTail_inTail, hs.nextIndex_in] at hi
    rw [ringSlots_pop hhead htail fun h => heq (BitVec.eq_of_toNat_eq h)]
    exact List.mem_cons_of_mem _ hi

/-- A push to the input ring. One that overruns in the middle of a pop has filled the ring, so that every slot has been
written (R246). -/
theorem State.ringsWritten.pushIn (hs : s.Inv) (h : s.ringsWritten) : (s.pushIn r).ringsWritten := by
  have ⟨hin, hout⟩ := h.queuesWritten.pushIn (r := r) hs
  have ⟨_, _, ⟨hhead, htail, _⟩, _⟩ := hs
  refine ⟨hin, hout, fun hmid => ?_⟩
  obtain ⟨hold, _, hpop⟩ := h
  refine ⟨Memory.slotWritten_putRecord (hpop hmid).1, fun heq i hi => ?_⟩
  by_cases hne : i = s.inHead.toNat
  · exact hne ▸ Memory.slotWritten_putRecord_same ..
  · have hfull : (s.inHead.toNat + 1) % s.cfg.inSlots = s.inTail.toNat := by
      rw [← hs.nextIndex_in]
      exact congrArg BitVec.toNat heq
    exact Memory.slotWritten_putRecord (hold i (mem_ringSlots_of_full hhead htail hfull hi hne))

/-- DR.CHK starts a pop only where the tail is held. -/
theorem execDrChk_ringsWritten (hs : s.Inv) (h : s.ringsWritten) (hu : execDrChk s = .next u) :
    u.ringsWritten := by
  obtain ⟨_, rfl⟩ := execDrChk_next.1 hu
  obtain ⟨hin, hout, _⟩ := h
  have ⟨_, _, ⟨hhead, htail, _⟩, _⟩ := hs
  refine ⟨hin, hout, fun ⟨hne, _⟩ => ?_⟩
  have hne : s.inHead.toNat ≠ s.inTail.toNat := by simpa [ringEmpty] using hne
  exact ⟨hin _ (tail_mem_ringSlots hhead htail hne), fun heq => absurd (congrArg BitVec.toNat heq) hne⟩

/-- DR.RD is enabled inside the pop. -/
theorem State.midPop_of_enabled_drRd {k : BitVec 2} (he : enabled (.drRd k) s = true) (hne : s.mNe = true) :
    s.midPop := by
  obtain ⟨_, _, hmph⟩ := enabled_drRd_iff.1 he
  have hk := k.isLt
  refine ⟨hne, ?_, ?_⟩ <;> bv_omega

/-- DR.RD stays inside the pop. -/
theorem execDrRd_ringsWritten {k : BitVec 2} (h : s.ringsWritten) (hu : execDrRd k s = .next u) :
    u.ringsWritten := by
  obtain ⟨hin, hout, hpop⟩ := h
  obtain ⟨he, ⟨hne, _, rfl⟩ | ⟨hne, rfl⟩⟩ := execDrRd_next.1 hu
  · exact ⟨hin, hout, fun _ => hpop (State.midPop_of_enabled_drRd he hne)⟩
  · exact ⟨hin, hout, fun hmid => absurd (hmid.1.symm.trans hne) (by decide)⟩

/-- DR.FWD ends the pop. -/
theorem execDrFwd_ringsWritten (hs : s.Inv) (h : s.ringsWritten) (hu : execDrFwd s = .next u) :
    u.ringsWritten := by
  obtain ⟨he, ⟨hne, v, hv, rfl⟩ | ⟨_, rfl⟩⟩ := execDrFwd_next.1 hu
  · obtain ⟨_, _, hmph⟩ := mainAt_iff.1 he
    have hmid : s.midPop := by simp [State.midPop, hne, hmph]
    have hv : v.queuesWritten := (h.advanceInTail hs hmid).applyPolicy hs.advanceInTail hv
    exact hv.setMph (by decide)
  · exact h.queuesWritten.setMph (by decide)

theorem exec_ringsWritten (hi : i.isStep) (hs : s.Inv) (h : s.ringsWritten) (hu : exec i s = .next u) :
    u.ringsWritten := by
  have hqueues := h.queuesWritten
  cases i with
  | init =>
    obtain rfl := execInit_next.1 hu
    exact State.ringsWritten_of_empty rfl rfl rfl
  | pin v =>
    obtain ⟨_, rfl⟩ := execPin_next.1 hu
    exact h
  | tmr n =>
    obtain ⟨_, rfl⟩ := execTmr_next.1 hu
    rw [State.ticks_frame]
    exact h
  | enterE =>
    obtain ⟨_, rfl⟩ := execEnterE_next.1 hu
    exact h
  | enterT =>
    obtain ⟨_, rfl⟩ := execEnterT_next.1 hu
    exact h
  | rdport =>
    obtain ⟨_, rfl⟩ := execRdport_next.1 hu
    exact h
  | rdtlo =>
    obtain ⟨_, rfl⟩ := execRdtlo_next.1 hu
    exact h
  | rdthi =>
    obtain ⟨_, rfl⟩ := execRdthi_next.1 hu
    exact h
  | commit =>
    obtain ⟨_, _, rfl⟩ := execCommit_next.1 hu
    have hnoted : s.noteOverrun.ringsWritten := by
      rw [State.noteOverrun_frame]
      exact h
    exact State.ringsWritten.pushIn (r := s.captured) hs.noteOverrun hnoted
  | drChk => exact execDrChk_ringsWritten hs h hu
  | drRd k => exact execDrRd_ringsWritten h hu
  | drFwd => exact execDrFwd_ringsWritten hs h hu
  | format =>
    obtain ⟨_, _, _, ⟨_, r, v, hpop, _, rfl⟩ | ⟨_, rfl⟩⟩ := execFormat_next.1 hu
    · have hv : v.queuesWritten := hqueues.popOut hs hpop
      exact State.queuesWritten.setMph (s := v.render r) hv (by decide)
    · exact hqueues.setMph (by decide)
  | tx r =>
    obtain ⟨_, b, _, ⟨_, rfl⟩ | ⟨_, _, rfl⟩ | ⟨_, _, rfl⟩⟩ := execTx_next.1 hu
    · exact hqueues.setMph (by decide)
    · exact State.queuesWritten.setMph (s := s.emitTx b) hqueues (by decide)
    · exact State.queuesWritten.setMph (s := s.emitEv .txStall) hqueues (by decide)
  | service =>
    obtain ⟨_, rfl⟩ := execService_next.1 hu
    exact State.queuesWritten.setMph (s := s.emitSvc) hqueues (by decide)
  | fwdTick | fwdEdge => exact absurd rfl hi

/-- The fetch touches no item of R243. -/
theorem fetch_ringsWritten (h : s.ringsWritten) (hu : fetch s = .ok (i, u)) : u.ringsWritten := by
  obtain ⟨w, rest, _, _, rfl⟩ | ⟨_, _, rfl⟩ := fetch_cases hu
  · exact h
  · exact h

/-- Settles O46: every step keeps the written slots (`exec_ringsWritten`); DR.RD reads inside a pop, and FORMAT a slot
of the output queue. -/
theorem ringReadsAreWritten : Obligations.RingReadsAreWritten := by
  refine ⟨fun s t hs h hstep => ?_, fun s hs ⟨_, hout, hpop⟩ => ⟨fun k he hne => ?_, fun hne => ?_⟩⟩
  · obtain ⟨i, u, hfetch, hexec⟩ := step_next.1 hstep
    exact exec_ringsWritten (isStep_of_fetch hfetch) (fetch_inv hs hfetch) (fetch_ringsWritten h hfetch) hexec
  · exact Memory.slotWritten_iff.1 (hpop (State.midPop_of_enabled_drRd he hne)).1 _ k.isLt
  · have ⟨_, _, ⟨_, _, hhead, htail⟩, _⟩ := hs
    exact hout _ (tail_mem_ringSlots hhead htail fun heq => hne (BitVec.eq_of_toNat_eq heq))

end Sys2Proof.Machine
end

section
/-! SUPPORT and the statements of 20_memory.md R74, R75 and 41_drain_rate_limiter.md R156: each ring as the list of the
records it holds. -/

namespace Sys2Proof.Machine

variable {s t u : State} {r : Record}

/-! ### When a slot reads the same -/

theorem State.readRecord_congr {a : Nat} (h : ∀ x, a ≤ x → x < a + 4 → t.readByte x = s.readByte x) :
    t.readRecord a = s.readRecord a := by
  rw [readRecord, readRecord, h _ le_rfl (by omega), h _ (by omega) (by omega), h _ (by omega) (by omega),
    h _ (by omega) (by omega)]

/-- A record written in another slot leaves a slot's record. -/
theorem State.readRecord_of_mem_putRecord_other {a b : Nat} (hmem : t.mem = s.mem.putRecord a r)
    (hdraw : t.memDraw = s.memDraw) (hab : b + 4 ≤ a ∨ a + 4 ≤ b) : t.readRecord b = s.readRecord b :=
  State.readRecord_congr fun _ _ _ => State.readByte_of_mem_putRecord_other hmem hdraw (by omega)

/-! ### The records in the slots of a ring (20_memory.md R61, R70) -/

/-- The records in slots of a ring depend on its storage. -/
theorem State.map_readRecord_congr {base S : Nat} {slots : List Nat} (hslots : ∀ i ∈ slots, i < S)
    (hmem : ∀ n < 4 * S, t.readByte (base + n) = s.readByte (base + n)) :
    slots.map (fun i => t.readRecord (base + 4 * i)) = slots.map fun i => s.readRecord (base + 4 * i) := by
  refine List.map_congr_left fun i hi => State.readRecord_congr fun x hx hx' => ?_
  have hlt := hslots i hi
  obtain ⟨n, rfl⟩ := Nat.exists_eq_add_of_le (show base ≤ x by omega)
  exact hmem n (by omega)

/-- A push with room appends its record to those held. -/
theorem State.map_readRecord_push {base S head tail : Nat} (hhead : head < S) (htail : tail < S)
    (hroom : (head + 1) % S ≠ tail) (hmem : t.mem = s.mem.putRecord (base + 4 * head) r)
    (hdraw : t.memDraw = s.memDraw) :
    ((ringSlots S ((head + 1) % S) tail).map fun i => t.readRecord (base + 4 * i)) =
      ((ringSlots S head tail).map fun i => s.readRecord (base + 4 * i)) ++ [r] := by
  rw [ringSlots_push hhead htail hroom, List.map_append, List.map_singleton, readRecord_of_mem_putRecord hmem]
  refine congrArg (· ++ [r]) (List.map_congr_left fun i hi => ?_)
  have hne := ne_head_of_mem_ringSlots htail hi
  exact readRecord_of_mem_putRecord_other hmem hdraw (by omega)

/-! ### The output ring (R74) -/

theorem State.outQueue_length (s : State) :
    s.outQueue.length = ringCount s.cfg.outSlots s.outHead.toNat s.outTail.toNat := by
  simp [outQueue]

theorem State.outQueue_length_lt (hs : s.Inv) : s.outQueue.length < s.cfg.outSlots := by
  rw [outQueue_length]
  exact ringCount_lt hs.outSlots_bounds.1

theorem State.outFull_iff_length (hs : s.Inv) : s.outFull = true ↔ s.outQueue.length + 1 = s.cfg.outSlots := by
  have ⟨_, _, ⟨_, _, hhead, htail⟩, _⟩ := hs
  rw [outFull_iff, outQueue_length, ringFull_iff_ringCount hhead htail]

/-- A push that succeeds appends its record. -/
theorem State.outQueue_putOut (hs : s.Inv) (hroom : s.outFull = false) :
    (s.putOut r).outQueue = s.outQueue ++ [r] := by
  have ⟨_, _, ⟨_, _, hhead, htail⟩, _⟩ := hs
  have hroom : (s.outHead.toNat + 1) % s.cfg.outSlots ≠ s.outTail.toNat := fun h => by
    simp [outFull_iff.2 h] at hroom
  rw [outQueue, putOut_outHead, putOut_cfg, hs.nextIndex_out]
  exact State.map_readRecord_push hhead htail hroom rfl rfl

theorem State.outQueue_forward (hs : s.Inv) (l : Label) :
    (s.forward l r).outQueue = if s.outFull then s.outQueue else s.outQueue ++ [r] := by
  obtain ⟨hroom, heq⟩ | ⟨hfull, heq⟩ := State.forward_cases l r s
  · rw [heq, hroom, outQueue_putOut hs hroom]
    rfl
  · rw [heq, hfull]
    rfl

/-- FORMAT takes the first record. -/
theorem State.outQueue_eq_cons_rendered (hs : s.Inv) (hne : s.outHead ≠ s.outTail) :
    s.outQueue = s.readRecord (outSlotAddr s.cfg s.outTail.toNat) :: s.rendered.outQueue := by
  have ⟨_, _, ⟨_, _, hhead, htail⟩, _⟩ := hs
  rw [outQueue, ringSlots_pop hhead htail fun heq => hne (BitVec.eq_of_toNat_eq heq), List.map_cons,
    ← hs.nextIndex_out]
  rfl

theorem outQueue_of_execCommit (hs : s.Inv) (h : execCommit s = .next t) : t.outQueue = s.outQueue := by
  have ⟨⟨_, _, hlayout, _⟩, _⟩ := hs
  have hsame : s.sameOutsideCapture t := exec_isr_sameOutsideCapture (i := .commit) rfl h
  obtain ⟨_, _, _, _, _, hhead, htail, _, _, _, _, _, hmem⟩ := State.sameMainItems_of_sameOutsideCapture hlayout hsame
  have hcfg : t.cfg = s.cfg := exec_cfg (i := .commit) h
  rw [State.outQueue, hcfg, hhead, htail]
  exact State.map_readRecord_congr (fun i => lt_of_mem_ringSlots hs.outSlots_bounds.1) hmem

/-- The policy of a record is the meaning of its class (30_encoding.md R112). -/
theorem exec_policy (r : Record) (s : State) : exec r.policy s = applyPolicy r s := (applyPolicy_eq r s).symm

/-- An edge record is forwarded, or dropped on a full ring, and restores the quota. -/
theorem exec_policy_of_edge (hs : s.Inv) (hkind : r.kind ≠ 0x00) :
    exec r.policy s = .next ((s.forward .outDropEdge r).setQuota s.cfg.tickQuotaMax) := by
  have ⟨_, _, ⟨_, _, hhead, _⟩, _⟩ := hs
  rw [exec_policy, applyPolicy_of_edge hkind]
  exact execFwdEdge_next.2 ⟨hhead, rfl⟩

/-- Settles O41: the push appends (`State.outQueue_forward`), the pop of FORMAT takes the first
(`State.outQueue_eq_cons_rendered`), and COMMIT leaves the output ring's storage. -/
theorem outputRingIsFifo : Obligations.OutputRingIsFifo := by
  intro s hs
  refine ⟨State.outFull_iff_length hs, State.outQueue_length_lt hs, fun r hkind => ?_,
    fun hready hb hne => ?_, fun t => outQueue_of_execCommit hs⟩
  · exact ⟨_, exec_policy_of_edge hs hkind, State.outQueue_forward hs _⟩
  · have ⟨_, _, ⟨_, _, _, htail⟩, _⟩ := hs
    exact ⟨s.rendered, _, execFormat_of_waiting hready hb hne htail, State.outQueue_eq_cons_rendered hs hne, rfl⟩

/-! ### The input ring (R74, R75) -/

theorem State.inQueue_length (s : State) :
    s.inQueue.length = ringCount s.cfg.inSlots s.inHead.toNat s.inTail.toNat := by
  simp [inQueue]

/-- A push that does not overrun appends its record. -/
theorem State.inQueue_committed (hs : s.Inv) (hroom : s.inFull = false) :
    s.committed.inQueue = s.inQueue ++ [s.captured] := by
  have ⟨_, _, ⟨hhead, htail, _⟩, _⟩ := hs
  have hroom : (s.inHead.toNat + 1) % s.cfg.inSlots ≠ s.inTail.toNat := fun h => by
    simp [inFull_iff.2 h] at hroom
  have hnext : s.committed.inHead.toNat = (s.inHead.toNat + 1) % s.cfg.inSlots := hs.nextIndex_in _
  rw [inQueue, hnext]
  exact State.map_readRecord_push hhead htail hroom rfl rfl

/-- An overrun leaves the ring reading as empty. -/
theorem State.inQueue_committed_of_full (hs : s.Inv) (hfull : s.inFull = true) :
    s.committed.inHead = s.committed.inTail ∧ s.committed.inQueue = [] ∧ s.inQueue.length + 1 = s.cfg.inSlots := by
  have ⟨_, _, ⟨hhead, htail, _⟩, _⟩ := hs
  have hlast := inFull_iff.1 hfull
  have heq : s.committed.inHead = s.committed.inTail :=
    BitVec.eq_of_toNat_eq ((hs.nextIndex_in _).trans hlast)
  refine ⟨heq, by simp [inQueue, heq], ?_⟩
  rw [inQueue_length]
  exact (ringFull_iff_ringCount hhead htail).1 hlast

/-- The end of the input pop takes the first record. -/
theorem State.inQueue_advanceInTail (hs : s.Inv) (hne : s.inHead ≠ s.inTail) :
    s.advanceInTail.inQueue = s.inQueue.tail := by
  have ⟨_, _, ⟨hhead, htail, _⟩, _⟩ := hs
  rw [inQueue, inQueue, ringSlots_pop hhead htail fun heq => hne (BitVec.eq_of_toNat_eq heq), List.map_cons,
    List.tail_cons, advanceInTail_inTail, hs.nextIndex_in]
  rfl

theorem State.forward_inTail (l : Label) (r : Record) (s : State) : (s.forward l r).inTail = s.inTail := by
  obtain ⟨_, heq⟩ | ⟨_, heq⟩ := State.forward_cases l r s <;> rw [heq] <;> rfl

theorem applyPolicy_inTail (h : applyPolicy r s = .next u) : u.inTail = s.inTail := by
  by_cases hkind : r.kind = 0x00
  · rw [applyPolicy_of_tick hkind] at h
    obtain ⟨_, rfl⟩ | ⟨_, _, rfl⟩ := execFwdTick_next.1 h
    · rfl
    · exact State.forward_inTail ..
  · rw [applyPolicy_of_edge hkind] at h
    obtain ⟨_, rfl⟩ := execFwdEdge_next.1 h
    exact State.forward_inTail ..

/-- The policy leaves the input ring. -/
theorem inQueue_of_applyPolicy (hs : s.Inv) (h : applyPolicy r s = .next u) : u.inQueue = s.inQueue := by
  have ⟨⟨_, _, hlayout, _⟩, _⟩ := hs
  have hsame := applyPolicy_sameForCapture h
  obtain ⟨hhead, _, _, _, _, _, hmem⟩ := State.sameCaptureItems_of_sameForCapture hlayout hsame
  have hcfg : u.cfg = s.cfg := (congrArg State.cfg hsame.1 :)
  rw [State.inQueue, hcfg, hhead, applyPolicy_inTail h]
  exact State.map_readRecord_congr (fun i => lt_of_mem_ringSlots hs.inSlots_bounds.1) hmem

/-- DR.FWD takes the first record. -/
theorem inQueue_of_execDrFwd (hs : s.Inv) (hne : s.mNe = true) (hin : s.inHead ≠ s.inTail)
    (h : execDrFwd s = .next t) : t.inQueue = s.inQueue.tail := by
  obtain ⟨u, hu, rfl⟩ := applyPolicy_of_execDrFwd hne h
  exact (inQueue_of_applyPolicy hs.advanceInTail hu).trans (State.inQueue_advanceInTail hs hin)

/-- Settles O42: COMMIT leaves `State.committed`, which appends or overruns, and DR.FWD takes the first record. -/
theorem inputRingIsFifoUntilOverrun : Obligations.InputRingIsFifoUntilOverrun := by
  refine fun s hs => ⟨fun hready => ?_, fun hready hne hin => ?_⟩
  · have ⟨_, _, ⟨hhead, _⟩, _⟩ := hs
    exact ⟨s.committed, execCommit_eq hready hhead, State.inQueue_committed hs, State.inQueue_committed_of_full hs⟩
  · obtain ⟨t, h⟩ := exec_completes (i := .drFwd) hs (mainAt_iff.2 hready)
    exact ⟨t, h, inQueue_of_execDrFwd hs hne hin h⟩

/-! ### The throttle over many ticks (41_drain_rate_limiter.md R156) -/

theorem exec_policy_of_throttled (hkind : r.kind = 0x00) (hquota : s.quota = 0) :
    exec r.policy s = .next (s.emitEv .tickThrottled) := by
  rw [exec_policy, applyPolicy_of_tick hkind]
  exact execFwdTick_next.2 (.inl ⟨hquota, rfl⟩)

theorem exec_policy_of_tick (hs : s.Inv) (hkind : r.kind = 0x00) (hquota : s.quota ≠ 0) (hroom : s.outFull = false) :
    exec r.policy s = .next ((s.putOut r).setQuota (s.quota - 1)) := by
  have ⟨_, _, ⟨_, _, hhead, _⟩, _⟩ := hs
  obtain ⟨lo, hi, port, kind⟩ := r
  obtain rfl : kind = 0x00 := hkind
  rw [exec_policy, applyPolicy_of_tick rfl]
  refine execFwdTick_next.2 (.inr ⟨hquota, hhead, ?_⟩)
  rw [State.forward, State.pushOut_eq_some.2 ⟨hroom, rfl⟩]
  rfl

/-- What a list of ticks leaves: as many forwarded as the quota allows, the others labelled. -/
theorem applyPolicies_ticks {ticks : List Record} (hs : s.Inv) (hkind : ∀ r ∈ ticks, r.kind = 0x00)
    (hroom : s.outQueue.length + ticks.length < s.cfg.outSlots) :
    ∃ t, applyPolicies ticks s = .next t ∧ t.Inv ∧ t.cfg = s.cfg ∧
      t.quota.toNat = s.quota.toNat - ticks.length ∧ t.outQueue = s.outQueue ++ ticks.take s.quota.toNat ∧
      t.evLog = s.evLog ++ List.replicate (ticks.length - s.quota.toNat) Label.tickThrottled := by
  induction ticks generalizing s with
  | nil => exact ⟨s, rfl, hs, rfl, by simp⟩
  | cons r ticks ih =>
    obtain ⟨hr, hkind⟩ := List.forall_mem_cons.1 hkind
    rw [List.length_cons] at hroom
    by_cases hquota : s.quota = 0
    · obtain ⟨t, ht, hinv, hcfg, hq, hqueue, hlog⟩ := ih (s := s.emitEv .tickThrottled) hs hkind
        (show s.outQueue.length + ticks.length < s.cfg.outSlots by omega)
      rw [applyPolicies, exec_policy_of_throttled hr hquota]
      refine ⟨t, ht, hinv, hcfg, ?_, hqueue.trans ?_, hlog.trans ?_⟩
      · simpa [hquota] using hq
      · rw [State.emitEv_quota, hquota]
        rfl
      · simp [hquota, List.replicate_succ]
    · have hnotFull : s.outFull = false := by
        rw [Bool.eq_false_iff, ne_eq, State.outFull_iff_length hs]
        omega
      have hexec := exec_policy_of_tick hs hr hquota hnotFull
      have hqueue' : ((s.putOut r).setQuota (s.quota - 1)).outQueue = s.outQueue ++ [r] :=
        State.outQueue_putOut hs hnotFull
      have hquota' : (s.quota - 1).toNat + 1 = s.quota.toNat := by bv_omega
      obtain ⟨t, ht, hinv, hcfg, hq, hqueue, hlog⟩ := ih (exec_inv hs hexec) hkind (by
        rw [hqueue', List.length_append, List.length_singleton]
        exact (by omega : s.outQueue.length + 1 + ticks.length < s.cfg.outSlots))
      rw [applyPolicies, hexec]
      refine ⟨t, ht, hinv, hcfg, ?_, ?_, hlog.trans ?_⟩
      · rw [hq, State.setQuota_quota, List.length_cons]
        omega
      · rw [hqueue, hqueue', State.setQuota_quota, ← hquota', List.take_succ_cons, List.append_assoc,
          List.singleton_append]
      · rw [State.setQuota_quota, List.length_cons, ← hquota', Nat.add_sub_add_right]
        rfl

/-- Settles O32: `applyPolicies_ticks`, by induction on the ticks; an edge record restores the quota. -/
theorem throttleForwardsQuotaTicks : Obligations.ThrottleForwardsQuotaTicks := by
  intro s ticks hs hkind hroom
  obtain ⟨t, ht, hinv, hcfg, hquota, hqueue, hlog⟩ := applyPolicies_ticks hs hkind hroom
  exact ⟨t, ht, hquota, hqueue, hlog, fun r hr => ⟨_, exec_policy_of_edge hinv hr, congrArg Config.tickQuotaMax hcfg⟩⟩

end Sys2Proof.Machine
end

section
/-! SUPPORT and the derived statements of 40_capture_handlers.md R137 to R139, 41_drain_rate_limiter.md R157 and
42_formatter.md R173, R174: what whole sequences of operations do. -/

namespace Sys2Proof.Machine

variable {s t : State} {i : Instr}

/-! ### Scripts one operation after the other (30_encoding.md R113) -/

theorem runScript_cons {rest : List Instr} (h : exec i s = .next t) : runScript (i :: rest) s = runScript rest t := by
  rw [runScript, h]

/-- The first operation of a script leaves the rest to be run. -/
theorem runScript_step {rest : List Instr} {r : Result} (h : exec i s = .next t) (hrest : runScript rest t = r) :
    runScript (i :: rest) s = r :=
  (runScript_cons h).trans hrest

theorem runScript_append {first rest : List Instr} (h : runScript first s = .next t) :
    runScript (first ++ rest) s = runScript rest t := by
  induction first generalizing s with
  | nil =>
    cases h
    rfl
  | cons i first ih =>
    cases hexec : exec i s with
    | next u =>
      rw [runScript_cons hexec] at h
      exact (runScript_cons hexec).trans (ih h)
    | fault f => simp [runScript, hexec] at h
    | refused f => simp [runScript, hexec] at h

/-! ### A whole handler invocation (R137) -/

/-- The state after the three reads of a handler. -/
def State.sampled (s : State) : State :=
  { s with rPort := s.pin, rTlo := tcntLow s.tcnt, rThi := tcntHigh s.tcnt, hph := hCommit }

/-- The rest of a handler reads the port and the count and commits. -/
theorem runScript_handlerBody (hready : s.handlerReady hPort) (hslot : s.inHead.toNat < s.cfg.inSlots) :
    runScript handlerBody s = .next s.sampled.committed := by
  obtain ⟨hie, _⟩ := id hready
  obtain ⟨_, _, _, hport, hlo, hhi⟩ := handlerReads
  refine runScript_step (hport s hready) (runScript_step (hlo _ ⟨hie, rfl⟩) (runScript_step (hhi _ ⟨hie, rfl⟩) ?_))
  exact runScript_cons (execCommit_eq (s := s.sampled) ⟨hie, rfl⟩ hslot)

/-- The flags a handler's entry leaves, of the class `kind` (R131, R132). -/
def State.clearFlags (kind : Bool) (s : State) : State :=
  if kind then { s with eif := 0 } else { s with tovf := false }

/-- The entry of a handler, by the kind it records. -/
def entryOf (kind : Bool) : Instr := if kind then .enterE else .enterT

theorem exec_entryOf {kind : Bool} (he : enabled (entryOf kind) s = true) :
    exec (entryOf kind) s = .next (State.enterHandler kind (s.clearFlags kind)) := by
  cases kind with
  | true => exact execEnterE_next.2 ⟨he, rfl⟩
  | false => exact execEnterT_next.2 ⟨he, rfl⟩

/-- The state after a whole handler. -/
def State.handled (kind : Bool) (s : State) : State :=
  (State.enterHandler kind (s.clearFlags kind)).sampled.committed

theorem runScript_handler {kind : Bool} (hs : s.Inv) (he : enabled (entryOf kind) s = true) :
    runScript (entryOf kind :: handlerBody) s = .next (s.handled kind) := by
  have ⟨_, _, ⟨hhead, _⟩, _⟩ := hs
  have hie := ie_of_enabled (by cases kind <;> decide) he
  rw [runScript_cons (exec_entryOf he)]
  cases kind <;> exact runScript_handlerBody ⟨hie, rfl⟩ hhead

/-- What a whole handler stores and leaves: the record of the pins and the count in slot IN_HEAD, and no byte outside
that slot. -/
theorem State.handled_stored (hs : s.Inv) (kind : Bool) :
    let a := inSlotAddr s.cfg s.inHead.toNat
    let t := s.handled kind
    t.readRecord a = ⟨tcntLow s.tcnt, tcntHigh s.tcnt, s.pin, marker kind⟩ ∧
      (∀ x, x < a ∨ a + 4 ≤ x → t.readByte x = s.readByte x) ∧
      t.inHead.toNat = (s.inHead.toNat + 1) % s.cfg.inSlots := by
  cases kind <;> exact ⟨State.readRecord_of_mem_putRecord rfl,
    fun _ => State.readByte_of_mem_putRecord_other rfl rfl, hs.nextIndex_in _⟩

/-- Settles O22: the handler leaves `State.handled`, which is `s` but for these items. -/
theorem wholeHandlerInvocation : Obligations.WholeHandlerInvocation := by
  intro s hs hie hhph a stored
  refine ⟨fun he => ⟨s.handled true, runScript_handler (kind := true) hs he, State.handled_stored hs true, ?_⟩,
    fun he => ⟨s.handled false, runScript_handler (kind := false) hs he, State.handled_stored hs false, ?_⟩⟩
  · rw [hhph]
    rfl
  · rw [hhph]
    rfl

/-! ### The two reads of the timer (R139) -/

/-- The high byte read `d` ticks after the low byte: the count at the first read, or 256 more after a carry. -/
theorem tcntHigh_append_tcntLow (c : Half) (d : Byte) : tcntHigh (c + BitVec.ofNat 16 d.toNat) ++ tcntLow c =
    if c.toNat % 256 + d.toNat < 256 then c else c + 256 := by
  have hc := c.isLt
  have hd := d.isLt
  have hlow : (tcntLow c).toNat = c.toNat % 256 := by simp [tcntLow]
  have hhigh (x : Half) : (tcntHigh x).toNat = x.toNat / 256 := by
    have hx := x.isLt
    simp only [tcntHigh, BitVec.extractLsb'_toNat, Nat.shiftRight_eq_div_pow]
    omega
  refine BitVec.eq_of_toNat_eq ?_
  rw [BitVec.toNat_append, hlow, hhigh, ← Nat.shiftLeft_add_eq_or_of_lt (by omega), Nat.shiftLeft_eq]
  split
  · simp only [BitVec.toNat_add, BitVec.toNat_ofNat]
    omega
  · simp only [BitVec.toNat_add, BitVec.ofNat_eq_ofNat, BitVec.toNat_ofNat]
    omega

/-- Settles O23: RDTLO and RDTHI each read the count of their own step. -/
theorem timestampSkew : Obligations.TimestampSkew := by
  intro s d hready hd
  obtain ⟨hie, _⟩ := id hready
  obtain ⟨_, _, _, _, hlo, hhi⟩ := handlerReads
  have hticks (u : State) (hu : u.ie = true) : exec (.tmr d) u = .next { u with
      tcnt := u.tcnt + BitVec.ofNat 16 d.toNat
      tovf := u.tovf || decide (65536 ≤ u.tcnt.toNat + d.toNat) } :=
    execTmr_next.2 ⟨enabled_tmr_iff.2 ⟨hu, hd⟩, State.ticks_eq ..⟩
  exact ⟨_, runScript_step (hlo s hready) (runScript_step (hticks _ hie) (runScript_step (hhi _ ⟨hie, rfl⟩) rfl)),
    tcntHigh_append_tcntLow s.tcnt d⟩

/-! ### Pin changes around an entry (R138) -/

/-- Settles O24: ENTER.E clears all flags, RDPORT reads the last level, and PIN sets flags at any phase. -/
theorem pinChangesCoalesce : Obligations.PinChangesCoalesce := by
  have hpin (v : Byte) (u : State) (hu : u.ie = true) : exec (.pin v) u = .next (u.movePins v) :=
    execPin_next.2 ⟨hu, rfl⟩
  obtain ⟨_, henter⟩ := enterEdgeHandler
  obtain ⟨_, _, _, hport, _⟩ := handlerReads
  refine ⟨fun s v w hie hhph hprio heif => ?_, fun s v w hie hhph hprio heif => ?_⟩
  · exact ⟨_, runScript_step (hpin v s hie) (runScript_step (hpin w _ hie)
      (runScript_step (henter _ ⟨hie, hhph, heif, hprio⟩) (runScript_step (hport _ ⟨hie, rfl⟩) rfl))), rfl, rfl⟩
  · exact ⟨_, runScript_step (hpin v s hie) (runScript_step (henter _ ⟨hie, hhph, heif, hprio⟩)
      (runScript_step (hpin w _ hie) (runScript_step (hport _ ⟨hie, rfl⟩) rfl))), rfl, BitVec.zero_or⟩

/-! ### The drain step (R157) -/

/-- With nothing to pop the reads and DR.FWD pass. -/
theorem runScript_pop_of_empty (hready : s.mainReady mRd0) (hne : s.mNe = false) :
    runScript [.drRd 0, .drRd 1, .drRd 2, .drRd 3, .drFwd] s = .next { s with mph := mFmt } := by
  obtain ⟨hie, hhph, hmph⟩ := hready
  have read (k : BitVec 2) (p : BitVec 4) (hp : p.toNat = 1 + k.toNat) :
      exec (.drRd k) { s with mph := p } = .next { s with mph := p + 1 } :=
    execDrRd_next.2 ⟨enabled_drRd_iff.2 ⟨hie, hhph, hp⟩, .inr ⟨hne, rfl⟩⟩
  have hstart : exec (.drRd 0) s = .next { s with mph := mRd0 + 1 } :=
    execDrRd_next.2 ⟨enabled_drRd_iff.2 ⟨hie, hhph, by rw [hmph]; rfl⟩, .inr ⟨hne, by rw [hmph]; rfl⟩⟩
  rw [runScript_cons hstart, runScript_cons (read 1 _ rfl), runScript_cons (read 2 _ rfl),
    runScript_cons (read 3 _ rfl)]
  exact runScript_cons (execDrFwd_next.2 ⟨mainAt_iff.2 ⟨hie, hhph, rfl⟩, .inr ⟨hne, rfl⟩⟩)

/-- With a record at the tail the four reads copy it. -/
theorem runScript_reads (hready : s.mainReady mRd0) (hne : s.mNe = true) (hslot : s.inTail.toNat < s.cfg.inSlots)
    (rest : List Instr) : runScript (.drRd 0 :: .drRd 1 :: .drRd 2 :: .drRd 3 :: rest) s =
      runScript rest { s with mRec := s.readRecord (inSlotAddr s.cfg s.inTail.toNat), mph := mFwd } := by
  obtain ⟨hie, hhph, hmph⟩ := hready
  have read (k : BitVec 2) (p : BitVec 4) (r : Record) (hp : p.toNat = 1 + k.toNat) :
      exec (.drRd k) { s with mph := p, mRec := r } = .next { s with
        mph := p + 1, mRec := r.setByte k (s.readByte (inSlotAddr s.cfg s.inTail.toNat + k.toNat)) } :=
    execDrRd_next.2 ⟨enabled_drRd_iff.2 ⟨hie, hhph, hp⟩, .inl ⟨hne, hslot, rfl⟩⟩
  have hstart : s = { s with mph := mRd0, mRec := s.mRec } := by rw [← hmph]
  rw [hstart, runScript_cons (read 0 _ _ rfl), runScript_cons (read 1 _ _ rfl), runScript_cons (read 2 _ _ rfl),
    runScript_cons (read 3 _ _ rfl)]
  rfl

theorem runScript_drain_of_empty (hready : s.mainReady mChk) (hin : s.inHead = s.inTail) :
    runScript drainSteps s = .next { s with mNe := false, mph := mFmt } := by
  obtain ⟨hie, hhph, _⟩ := id hready
  obtain ⟨_, hcheck⟩ := drainCheck
  rw [drainSteps, runScript_cons (hcheck s hready), decide_eq_false (not_not_intro hin)]
  exact runScript_pop_of_empty (s := { s with mNe := false, mph := mRd0 }) ⟨hie, hhph, rfl⟩ rfl

/-- The state in which DR.FWD meets the record at the tail. -/
def State.popped (s : State) : State :=
  { s with mNe := true, mRec := s.readRecord (inSlotAddr s.cfg s.inTail.toNat), mph := mFwd }

theorem runScript_drain_of_record {u : State} (hready : s.mainReady mChk) (hin : s.inHead ≠ s.inTail)
    (hslot : s.inTail.toNat < s.cfg.inSlots) (hu : applyPolicy s.popped.mRec s.popped.advanceInTail = .next u) :
    runScript drainSteps s = .next (u.setMph mFmt) := by
  obtain ⟨hie, hhph, _⟩ := id hready
  obtain ⟨_, hcheck⟩ := drainCheck
  rw [drainSteps, runScript_cons (hcheck s hready), decide_eq_true hin,
    runScript_reads (s := { s with mNe := true, mph := mRd0 }) ⟨hie, hhph, rfl⟩ rfl hslot]
  exact runScript_cons (s := s.popped) (execDrFwd_next.2 ⟨mainAt_iff.2 ⟨hie, hhph, rfl⟩, .inl ⟨rfl, u, hu, rfl⟩⟩)

/-- Settles O33: DR.CHK selects between a pass (`runScript_drain_of_empty`) and the reads, after which DR.FWD gives
the record to its policy (`runScript_drain_of_record`). -/
theorem wholeDrainStep : Obligations.WholeDrainStep := by
  refine fun s hs hready => ⟨runScript_drain_of_empty hready, fun hin => ?_⟩
  have ⟨_, _, ⟨_, htail, houtHead, _⟩, _⟩ := hs
  obtain ⟨u, hu⟩ := applyPolicy_completes (s := s.popped.advanceInTail) s.popped.mRec houtHead
  exact ⟨_, s.popped.advanceInTail, u, rfl, hs.nextIndex_in _, rfl, (exec_policy ..).trans hu,
    runScript_drain_of_record hready hin htail hu⟩

/-! ### Line breaks (42_formatter.md R173) -/

/-- The line counter counts modulo `N`. -/
theorem lineStep_snd_toNat {n cnt : Byte} (h : cnt.toNat < n.toNat) :
    (lineStep n cnt).2.toNat = (cnt.toNat + 1) % n.toNat := by
  rw [lineStep_eq, next_eq h]
  dsimp only
  split
  · next hend => rw [if_neg (by omega)]; rfl
  · next hend => rw [if_pos (by omega)]; bv_omega

/-- The line counter after `j` renderings. -/
theorem lineStep_iterate {n : Byte} (hn : 1 ≤ n.toNat) (j : Nat) :
    ((fun c => (lineStep n c).2)^[j] 0).toNat = j % n.toNat := by
  induction j with
  | zero => simp
  | succ j ih =>
    have hlt : j % n.toNat < n.toNat := Nat.mod_lt _ hn
    rw [Function.iterate_succ_apply', lineStep_snd_toNat (ih.trans_lt hlt), ih, Nat.mod_add_mod]

/-- Settles O35: the counter counts modulo `N`, and the line ends where it would reach `N`. -/
theorem lineBreakEveryNth : Obligations.LineBreakEveryNth := by
  intro n j hn cnt
  have hcnt : cnt.toNat = j % n.toNat := lineStep_iterate hn j
  have hlt : j % n.toNat < n.toNat := Nat.mod_lt _ hn
  refine ⟨hcnt, ?_⟩
  rw [lineStep_eq, hcnt, ← Nat.mod_add_mod, next_eq hlt]
  refine if_congr ?_ rfl rfl
  split <;> omega

/-! ### Eight iterations send a text (42_formatter.md R174, 43_transmitter.md R187) -/

/-- The state after an iteration that sends the byte `b`. -/
def State.sent (b : Byte) (s : State) : State :=
  { s with mNe := false, txLog := s.txLog ++ [b], cur := s.cur + 1, svcCnt := s.svcCnt + 1 }

/-- One iteration with text pending, a ready transport and nothing to drain. -/
theorem runScript_iter_of_text {b : Byte} (hready : s.mainReady mChk) (hin : s.inHead = s.inTail)
    (hb : s.curByte = some b) (htext : b ≠ termByte) : runScript (iterSteps true) s = .next (s.sent b) := by
  obtain ⟨hie, hhph, hmph⟩ := id hready
  obtain ⟨_, htx⟩ := transmitAtMostOneByte
  obtain ⟨_, hservice⟩ := serviceStrobe
  have hformat : exec .format { s with mNe := false, mph := mFmt } = .next { s with mNe := false, mph := mTx } :=
    execFormat_of_idle (s := { s with mNe := false, mph := mFmt }) ⟨hie, hhph, rfl⟩ hb (.inl htext)
  have hsend := ((htx { s with mNe := false, mph := mTx } b ⟨hie, hhph, rfl⟩ hb).2 htext).1
  rw [iterSteps, runScript_append (runScript_drain_of_empty hready hin)]
  refine runScript_step hformat (runScript_step hsend (runScript_step (hservice _ ⟨hie, hhph, rfl⟩) ?_))
  rw [← hmph]
  rfl

/-- `k` such iterations send the next `k` bytes of the text. -/
theorem runScript_run_of_text (k : Nat) (hready : s.mainReady mChk) (hin : s.inHead = s.inTail)
    (hcur : s.cur.toNat + k ≤ 8) (htext : ∀ (j : Nat) (hj : j < 8), s.txbuf[j] ≠ termByte) :
    runScript (Pseudo.run k true).expand s = .next { s with
      txLog := s.txLog ++ (s.txbuf.toList.drop s.cur.toNat).take k, svcCnt := s.svcCnt + k
      cur := s.cur + BitVec.ofNat 4 k, mNe := s.mNe && decide (k = 0) } := by
  induction k generalizing s with
  | zero => simp [Pseudo.expand, runScript]
  | succ k ih =>
    have hlt : s.cur.toNat < 9 := by omega
    have hb : s.curByte = some s.txbuf[s.cur.toNat] := Vector.getElem?_eq_getElem hlt
    have hiter := runScript_iter_of_text hready hin hb (htext _ (by omega))
    have hmod : (s.cur.toNat + 1) % 16 = s.cur.toNat + 1 := Nat.mod_eq_of_lt (by omega)
    have hrest := ih (s := s.sent s.txbuf[s.cur.toNat]) hready hin (show (s.cur + 1).toNat + k ≤ 8 by bv_omega) htext
    have hcursor : s.cur + 1#4 + BitVec.ofNat 4 k = s.cur + BitVec.ofNat 4 (k + 1) := by
      rw [Nat.add_comm k, BitVec.ofNat_add, BitVec.add_assoc]
    have hdrop : s.txbuf.toList.drop s.cur.toNat =
        s.txbuf[s.cur.toNat] :: s.txbuf.toList.drop (s.cur.toNat + 1) := by
      rw [List.drop_eq_getElem_cons (by simpa using hlt), Vector.getElem_toList]
    refine (runScript_append hiter).trans (hrest.trans ?_)
    simp [State.sent, hmod, hcursor, hdrop, Nat.add_right_comm, Nat.add_assoc]

/-- Settles O38: a rendered text holds no marker before its end, so each of eight iterations sends a byte. -/
theorem textSentInEightIterations : Obligations.TextSentInEightIterations := by
  intro s r sep _ hready hin htext hsep hcur
  have hne (j : Nat) (hj : j < 8) : s.txbuf[j] ≠ termByte := by
    simpa [htext] using tokenText_ne_termByte r hsep hj
  refine ⟨_, runScript_run_of_text 8 hready hin (by simp [hcur]) hne, ?_⟩
  simp [hcur]

end Sys2Proof.Machine
end

section
/-! SUPPORT and the statements of 10_state.md R40, 40_capture_handlers.md R140 and 20_memory.md R80: which items an
operation does not depend on, and which adjacent operations may be swapped. -/

namespace Sys2Proof.Machine

/-! ### Outcomes in a relation -/

/-- The state after DR.RD k copies its byte of the slot at IN_TAIL. -/
def State.readTail (k : BitVec 2) (s : State) : State :=
  State.setMph (s.mph + 1)
    { s with mRec := s.mRec.setByte k (s.readByte (inSlotAddr s.cfg s.inTail.toNat + k.toNat)) }

section

variable {R R' : State → State → Prop} {s m : State} {i : Instr} {k k' : Result}

theorem mapNext_eq_of_sameOutcome {f g : State → State} (h : sameOutcome (fun a b => f a = g b) k k') :
    mapNext f k = mapNext g k' := by
  cases k <;> cases k' <;> simp_all [sameOutcome, mapNext, andThen]

theorem sameOutcome_mono (hR : ∀ a b, R a b → R' a b) (h : sameOutcome R k k') : sameOutcome R' k k' := by
  cases k <;> cases k' <;> simp_all [sameOutcome]

/-! A guard compares nothing but its condition. -/

theorem sameOutcome_whenEnabled (he : enabled i m = enabled i s) (hie : m.ie = s.ie) (h : sameOutcome R k k') :
    sameOutcome R (whenEnabled i s k) (whenEnabled i m k') := by
  unfold whenEnabled
  rw [he, hie]
  split
  · exact h
  · rfl

theorem sameOutcome_withInSlot {j j' : BitVec 8} (hcfg : m.cfg = s.cfg) (hj : j' = j)
    (h : j.toNat < s.cfg.inSlots → sameOutcome R k k') : sameOutcome R (withInSlot j s k) (withInSlot j' m k') := by
  unfold withInSlot
  rw [hcfg, hj]
  split
  · next hj => exact h hj
  · rfl

theorem sameOutcome_withOutSlot {j j' : Half} (hcfg : m.cfg = s.cfg) (hj : j' = j)
    (h : j.toNat < s.cfg.outSlots → sameOutcome R k k') : sameOutcome R (withOutSlot j s k) (withOutSlot j' m k') := by
  unfold withOutSlot
  rw [hcfg, hj]
  split
  · next hj => exact h hj
  · rfl

/-! What MAIN's operations need of two states to have outcomes in a relation. -/

theorem sameOutcome_execDrRd (k : BitVec 2) (he : enabled (.drRd k) m = enabled (.drRd k) s) (hie : m.ie = s.ie)
    (hcfg : m.cfg = s.cfg) (hne : m.mNe = s.mNe) (htail : m.inTail = s.inTail)
    (hskip : R (s.setMph (s.mph + 1)) (m.setMph (m.mph + 1)))
    (hread : s.mNe = true → R (s.readTail k) (m.readTail k)) : sameOutcome R (execDrRd k s) (execDrRd k m) := by
  refine sameOutcome_whenEnabled he hie ?_
  by_cases hs : s.mNe = true
  · rw [if_pos hs, if_pos (hne.trans hs)]
    exact sameOutcome_withInSlot hcfg htail fun _ => hread hs
  · rw [if_neg hs, if_neg fun hm => hs (hne.symm.trans hm)]
    exact hskip

/-- What the record classes need: the items they look at are the same, and each of their updates is in the relation. -/
structure PolicySim (R : State → State → Prop) (s m : State) : Prop where
  cfg : m.cfg = s.cfg
  quota : m.quota = s.quota
  outHead : m.outHead = s.outHead
  outTail : m.outTail = s.outTail
  push : s.outHead.toNat < s.cfg.outSlots → ∀ r q, R ((s.putOut r).setQuota q) ((m.putOut r).setQuota q)
  drop : ∀ l q, R ((s.emitEv l).setQuota q) ((m.emitEv l).setQuota q)
  throttle : R (s.emitEv .tickThrottled) (m.emitEv .tickThrottled)

theorem PolicySim.forward (h : PolicySim R s m) (hslot : s.outHead.toNat < s.cfg.outSlots) (l : Label) (r : Record)
    (q : BitVec 8) : R ((s.forward l r).setQuota q) ((m.forward l r).setQuota q) := by
  have hfull : m.outFull = s.outFull := by rw [State.outFull, State.outFull, h.cfg, h.outHead, h.outTail]
  cases hs : s.outFull with
  | true =>
    rw [State.forward_of_outFull (State.outFull_iff.1 hs),
      State.forward_of_outFull (State.outFull_iff.1 (hfull.trans hs))]
    exact h.drop l q
  | false =>
    have room {u : State} (hu : u.outFull = false) : (u.outHead.toNat + 1) % u.cfg.outSlots ≠ u.outTail.toNat :=
      fun hlast => absurd (hu.symm.trans (State.outFull_iff.2 hlast)) (by decide)
    rw [State.forward_of_room (room hs), State.forward_of_room (room (hfull.trans hs))]
    exact h.push hslot r q

theorem PolicySim.execFwdTick (h : PolicySim R s m) (a b c : Byte) :
    sameOutcome R (execFwdTick a b c s) (execFwdTick a b c m) := by
  unfold Machine.execFwdTick
  rw [h.quota]
  split
  · exact h.throttle
  · exact sameOutcome_withOutSlot h.cfg h.outHead fun hslot => h.forward hslot ..

theorem PolicySim.execFwdEdge (h : PolicySim R s m) (a b c d : Byte) :
    sameOutcome R (execFwdEdge a b c d s) (execFwdEdge a b c d m) := by
  unfold Machine.execFwdEdge
  rw [h.cfg]
  exact sameOutcome_withOutSlot h.cfg h.outHead fun hslot => h.forward hslot ..

theorem PolicySim.applyPolicy (h : PolicySim R s m) (r : Record) :
    sameOutcome R (applyPolicy r s) (applyPolicy r m) := by
  unfold Machine.applyPolicy
  split
  · exact h.execFwdTick ..
  · exact h.execFwdEdge ..

theorem sameOutcome_execDrFwd (he : enabled .drFwd m = enabled .drFwd s) (hie : m.ie = s.ie) (hne : m.mNe = s.mNe)
    (hrec : m.mRec = s.mRec) (hskip : R (s.setMph mFmt) (m.setMph mFmt))
    (hpolicy : PolicySim (fun a b => R (a.setMph mFmt) (b.setMph mFmt)) s.advanceInTail m.advanceInTail) :
    sameOutcome R (execDrFwd s) (execDrFwd m) := by
  refine sameOutcome_whenEnabled he hie ?_
  rw [hne, hrec]
  split
  · have houtcome := hpolicy.applyPolicy s.mRec
    revert houtcome
    cases applyPolicy s.mRec s.advanceInTail <;> cases applyPolicy s.mRec m.advanceInTail <;> exact id
  · exact hskip

theorem sameOutcome_execFormat (he : enabled .format m = enabled .format s) (hie : m.ie = s.ie)
    (hcfg : m.cfg = s.cfg) (hbyte : m.curByte = s.curByte) (hhead : m.outHead = s.outHead)
    (htail : m.outTail = s.outTail) (hskip : R (s.setMph mTx) (m.setMph mTx))
    (hrender : s.outTail.toNat < s.cfg.outSlots → R s.rendered m.rendered) :
    sameOutcome R (execFormat s) (execFormat m) := by
  refine sameOutcome_whenEnabled he hie ?_
  rw [hbyte]
  split
  · rfl
  · split
    · by_cases hempty : s.outHead = s.outTail
      · rw [State.popOut_eq_none.2 hempty, State.popOut_eq_none.2 (hhead.trans (hempty.trans htail.symm))]
        exact hskip
      · have hempty' : m.outHead ≠ m.outTail := by rwa [hhead, htail]
        rw [State.popOut_eq_some_iff.2 ⟨hempty, rfl, rfl⟩, State.popOut_eq_some_iff.2 ⟨hempty', rfl, rfl⟩]
        exact sameOutcome_withOutSlot hcfg htail hrender
    · exact hskip

theorem sameOutcome_execTx (r : Bool) (he : enabled (.tx r) m = enabled (.tx r) s) (hie : m.ie = s.ie)
    (hbyte : m.curByte = s.curByte) (hskip : R (s.setMph mSvc) (m.setMph mSvc))
    (hsend : ∀ b, R ((s.emitTx b).setMph mSvc) ((m.emitTx b).setMph mSvc))
    (hstall : R ((s.emitEv .txStall).setMph mSvc) ((m.emitEv .txStall).setMph mSvc)) :
    sameOutcome R (execTx r s) (execTx r m) := by
  refine sameOutcome_whenEnabled he hie ?_
  rw [hbyte]
  split
  · rfl
  · split
    · exact hskip
    · cases r with
      | true => exact hsend _
      | false => exact hstall

end

/-! ### Ghost items (10_state.md R40) -/

/-- `m` is `s` but for the ghost items. -/
def State.sameButGhosts (s m : State) : Prop := ∃ log cnt ev, m = s.withGhosts log cnt ev

theorem State.sameButGhosts_withGhosts {s m : State} (h : s.sameButGhosts m) :
    s.withGhosts [] 0 [] = m.withGhosts [] 0 [] := by
  obtain ⟨_, _, _, rfl⟩ := h
  rfl

theorem enabled_withGhosts (s : State) (i : Instr) (log : List Byte) (cnt : Nat) (ev : List Label) :
    enabled i (s.withGhosts log cnt ev) = enabled i s := by
  cases i <;> rfl

theorem exec_sameButGhosts (s : State) (i : Instr) (log : List Byte) (cnt : Nat) (ev : List Label) :
    sameOutcome State.sameButGhosts (exec i s) (exec i (s.withGhosts log cnt ev)) := by
  have guard {k k' : Result} (h : sameOutcome State.sameButGhosts k k') :=
    sameOutcome_whenEnabled (enabled_withGhosts s i log cnt ev) rfl h
  have policy : PolicySim State.sameButGhosts s (s.withGhosts log cnt ev) :=
    ⟨rfl, rfl, rfl, rfl, fun _ _ _ => ⟨_, _, _, rfl⟩, fun _ _ => ⟨_, _, _, rfl⟩, ⟨_, _, _, rfl⟩⟩
  cases i with
  | init | pin | enterE | enterT | rdport | rdtlo | rdthi | drChk | service => exact guard ⟨_, _, _, rfl⟩
  | tmr n =>
    refine guard ⟨log, cnt, ev, ?_⟩
    rw [State.ticks_eq, State.ticks_eq]
    rfl
  | commit =>
    refine guard (sameOutcome_withInSlot rfl rfl fun _ => ⟨log, cnt, (s.withGhosts log cnt ev).noteOverrun.evLog, ?_⟩)
    rw [State.noteOverrun_frame, State.noteOverrun_frame s]
    rfl
  | drRd k => exact sameOutcome_execDrRd k rfl rfl rfl rfl rfl ⟨_, _, _, rfl⟩ fun _ => ⟨_, _, _, rfl⟩
  | drFwd =>
    exact sameOutcome_execDrFwd rfl rfl rfl rfl ⟨_, _, _, rfl⟩
      ⟨rfl, rfl, rfl, rfl, fun _ _ _ => ⟨_, _, _, rfl⟩, fun _ _ => ⟨_, _, _, rfl⟩, ⟨_, _, _, rfl⟩⟩
  | format =>
    exact sameOutcome_execFormat rfl rfl rfl rfl rfl rfl ⟨_, _, _, rfl⟩ fun _ => ⟨_, _, _, rfl⟩
  | tx r => exact sameOutcome_execTx r rfl rfl rfl ⟨_, _, _, rfl⟩ (fun _ => ⟨_, _, _, rfl⟩) ⟨_, _, _, rfl⟩
  | fwdTick a b c => exact policy.execFwdTick a b c
  | fwdEdge a b c d => exact policy.execFwdEdge a b c d

/-- Settles O49: no enabling condition reads a ghost item, and the outcomes are the same but for them. -/
theorem ghostsAreNotRead : Obligations.GhostsAreNotRead := fun s i log cnt ev =>
  ⟨enabled_withGhosts s i log cnt ev,
    (mapNext_eq_of_sameOutcome (f := State.withGhosts [] 0 []) (g := State.withGhosts [] 0 [])
      (sameOutcome_mono (fun _ _ => State.sameButGhosts_withGhosts) (exec_sameButGhosts s i log cnt ev))).symm⟩

end Sys2Proof.Machine
end

section
/-! SUPPORT and the statements of 40_capture_handlers.md R140 and 20_memory.md R80: the capture unit does not depend on
MAIN's items, and MAIN's operations may be swapped with those of the other agents. -/

namespace Sys2Proof.Machine

variable {s t m : State} {i : Instr}

/-! ### The capture unit and MAIN's items (40_capture_handlers.md R140) -/

/-- With MAIN's registers replaced a capture operation has the same outcome but for them and the labels. -/
theorem exec_isr_withMainOf (ha : i.agent = .isr) (s m : State) :
    sameOutcome (fun a b => (a.withMainOf m).withoutLabels = b.withoutLabels) (exec i s)
      (exec i (s.withMainOf m)) := by
  cases i with
  | enterE | enterT | rdport | rdtlo | rdthi => exact sameOutcome_whenEnabled rfl rfl rfl
  | commit =>
    refine sameOutcome_whenEnabled rfl rfl (sameOutcome_withInSlot rfl rfl fun _ => ?_)
    rw [State.noteOverrun_frame, State.noteOverrun_frame (s.withMainOf m)]
    rfl
  | init | pin | tmr | drChk | drRd | drFwd | format | tx | service | fwdTick | fwdEdge => simp [Instr.agent] at ha

/-- `m` is `s` with the items of MAIN and the labels of other states. -/
theorem State.sameForCapture_of_eq {c : State} {mem : Memory} {ev : List Label}
    (heq : m = { s.withMainOf c with mem := mem, evLog := ev })
    (hmem : ∀ x, x < s.cfg.outBase ∨ s.cfg.outBase + 4 * s.cfg.outSlots ≤ x → m.readByte x = s.readByte x) :
    s.sameForCapture m :=
  ⟨by rw [heq]; rfl, hmem⟩

/-- An update of capture items alone that looks at no item of MAIN. -/
theorem State.sameForCapture.update {f : State → State} (h : s.sameForCapture m)
    (hf : f { s.withMainOf m with mem := m.mem, evLog := m.evLog } =
      { (f s).withMainOf m with mem := m.mem, evLog := m.evLog })
    (hkept : ∀ u, (f u).mem = u.mem ∧ (f u).memDraw = u.memDraw ∧ (f u).cfg = u.cfg) : (f s).sameForCapture (f m) := by
  obtain ⟨heq, hmem⟩ := h
  obtain ⟨hsm, hsd, hsc⟩ := hkept s
  obtain ⟨hmm, hmd, _⟩ := hkept m
  refine State.sameForCapture_of_eq ((congrArg f heq).trans hf) fun x hx => ?_
  rw [State.readByte_congr hsm hsd, State.readByte_congr hmm hmd]
  rw [hsc] at hx
  exact hmem x hx

/-- No condition of a capture operation reads an item of MAIN. -/
theorem State.sameForCapture.enabled (ha : i.agent = .isr) (h : s.sameForCapture m) : enabled i m = enabled i s := by
  obtain ⟨heq, _⟩ := h
  rw [heq]
  cases i with
  | enterE | enterT | rdport | rdtlo | rdthi | commit => rfl
  | init | pin | tmr | drChk | drRd | drFwd | format | tx | service | fwdTick | fwdEdge => simp [Instr.agent] at ha

/-- A byte that two states agree on, they agree on after both write the same record in the same slot. -/
theorem State.readByte_congr_putRecord {u v : State} {a x : Nat} {r : Record} (hu : u.mem = s.mem.putRecord a r)
    (hud : u.memDraw = s.memDraw) (hv : v.mem = m.mem.putRecord a r) (hvd : v.memDraw = m.memDraw)
    (h : m.readByte x = s.readByte x) : v.readByte x = u.readByte x := by
  by_cases hx : x < a ∨ a + 4 ≤ x
  · rw [State.readByte_of_mem_putRecord_other hu hud hx, State.readByte_of_mem_putRecord_other hv hvd hx, h]
  · have hrec : v.readRecord a = u.readRecord a :=
      (State.readRecord_of_mem_putRecord hv).trans (State.readRecord_of_mem_putRecord hu).symm
    obtain ⟨h0, h1, h2, h3⟩ := Record.mk.inj hrec
    obtain rfl | rfl | rfl | rfl : x = a ∨ x = a + 1 ∨ x = a + 2 ∨ x = a + 3 := by omega
    exacts [h0, h1, h2, h3]

/-- COMMIT writes the same record in the same slot. -/
theorem State.sameForCapture.committed (h : s.sameForCapture m) : s.committed.sameForCapture m.committed := by
  obtain ⟨heq, hmem⟩ := h
  have hwritten : m.committed.mem = m.mem.putRecord (inSlotAddr s.cfg s.inHead.toNat) s.captured := by
    rw [heq]
    rfl
  exact State.sameForCapture_of_eq ((congrArg State.committed heq).trans rfl) fun x hx =>
    State.readByte_congr_putRecord rfl rfl hwritten rfl (hmem x hx)

theorem exec_isr_sameForCapture (ha : i.agent = .isr) (h : s.sameForCapture m) :
    sameOutcome State.sameForCapture (exec i s) (exec i m) := by
  have he := h.enabled ha
  have hie : m.ie = s.ie := (congrArg State.ie h.1 :)
  have run {f : State → State}
      (hf : f { s.withMainOf m with mem := m.mem, evLog := m.evLog } =
        { (f s).withMainOf m with mem := m.mem, evLog := m.evLog })
      (hkept : ∀ u, (f u).mem = u.mem ∧ (f u).memDraw = u.memDraw ∧ (f u).cfg = u.cfg) :
      sameOutcome State.sameForCapture (whenEnabled i s (.next (f s))) (whenEnabled i m (.next (f m))) :=
    sameOutcome_whenEnabled he hie (h.update hf hkept)
  cases i with
  | enterE => exact run (f := fun u => State.enterHandler true { u with eif := 0 }) rfl fun _ => ⟨rfl, rfl, rfl⟩
  | enterT => exact run (f := fun u => State.enterHandler false { u with tovf := false }) rfl fun _ => ⟨rfl, rfl, rfl⟩
  | rdport => exact run (f := fun u => State.setHph hTlo { u with rPort := u.pin }) rfl fun _ => ⟨rfl, rfl, rfl⟩
  | rdtlo => exact run (f := fun u => State.setHph hThi { u with rTlo := tcntLow u.tcnt }) rfl fun _ => ⟨rfl, rfl, rfl⟩
  | rdthi =>
    exact run (f := fun u => State.setHph hCommit { u with rThi := tcntHigh u.tcnt }) rfl fun _ => ⟨rfl, rfl, rfl⟩
  | commit =>
    have hcfg : m.cfg = s.cfg := (congrArg State.cfg h.1 :)
    have hhead : m.inHead = s.inHead := (congrArg State.inHead h.1 :)
    refine sameOutcome_whenEnabled he hie (sameOutcome_withInSlot hcfg hhead fun _ => ?_)
    rw [State.noteOverrun_frame, State.noteOverrun_frame m]
    exact h.committed
  | init | pin | tmr | drChk | drRd | drFwd | format | tx | service | fwdTick | fwdEdge => simp [Instr.agent] at ha

/-- Settles O50: the first part compares `s` with itself given MAIN's registers of `m`, the second two states that
differ in MAIN's items, the output ring's storage among them. -/
theorem captureIgnoresMainState : Obligations.CaptureIgnoresMainState := fun s m _ ha =>
  ⟨(mapNext_eq_of_sameOutcome (f := fun t => (t.withMainOf m).withoutLabels) (g := State.withoutLabels)
    (exec_isr_withMainOf ha s m)).symm, exec_isr_sameForCapture ha⟩

/-! ### Writes to different slots (20_memory.md R61) -/

theorem Memory.put_comm (m : Memory) {a b : Nat} (v w : Byte) (h : a ≠ b) :
    (m.put a v).put b w = (m.put b w).put a v := by
  wlog hab : a < b generalizing a b v w
  · exact (this w v h.symm (by omega)).symm
  induction m with
  | nil => simp (disch := omega) only [put, if_pos, if_neg]
  | cons c m ih =>
    obtain ⟨k, x⟩ := c
    obtain hk | rfl | ⟨hk, hk'⟩ | rfl | hk : k < a ∨ k = a ∨ a < k ∧ k < b ∨ k = b ∨ b < k := by omega
    · simp (disch := omega) only [put, if_neg, ih]
    all_goals simp (disch := omega) only [put, if_pos, if_neg, if_true]

theorem Memory.putRecord_put_comm (m : Memory) {a x : Nat} (r : Record) (v : Byte) (h : x < a ∨ a + 4 ≤ x) :
    (m.putRecord a r).put x v = (m.put x v).putRecord a r := by
  simp only [putRecord]
  rw [put_comm _ _ v (by omega), put_comm _ _ v (by omega), put_comm _ _ v (by omega), put_comm _ _ v (by omega)]

theorem Memory.putRecord_comm (m : Memory) {a b : Nat} (r q : Record) (h : a + 4 ≤ b ∨ b + 4 ≤ a) :
    (m.putRecord a r).putRecord b q = (m.putRecord b q).putRecord a r := by
  rw [putRecord, putRecord_put_comm _ r _ (by omega), putRecord_put_comm _ r _ (by omega),
    putRecord_put_comm _ r _ (by omega), putRecord_put_comm _ r _ (by omega)]
  rfl

/-! ### MAIN and the other agents (20_memory.md R80) -/

/-- `s` with the items of the environment and the capture unit, HPH apart, taken from `c`, and memory written by `w`. -/
def State.withOthersOf (s c : State) (w : Memory → Memory) : State :=
  { s with
    pin := c.pin, tcnt := c.tcnt, eif := c.eif, tovf := c.tovf, inHead := c.inHead, rPort := c.rPort
    rTlo := c.rTlo, rThi := c.rThi, hkind := c.hkind, mem := w s.mem }

/-- `w` writes no byte of the output ring. -/
structure WritesApart (cfg : Config) (w : Memory → Memory) : Prop where
  push : ∀ i < cfg.outSlots, ∀ m r,
    w (m.putRecord (outSlotAddr cfg i) r) = (w m).putRecord (outSlotAddr cfg i) r
  read : ∀ i < cfg.outSlots, ∀ k < 4, ∀ m, (w m).byteAt (outSlotAddr cfg i + k) = m.byteAt (outSlotAddr cfg i + k)

theorem WritesApart.id (cfg : Config) : WritesApart cfg id := ⟨fun _ _ _ _ => rfl, fun _ _ _ _ _ => rfl⟩

/-- A write of a slot of the input ring, for the rings' storage is disjoint (R61, R64). -/
theorem WritesApart.putRecord {cfg : Config} (hlayout : cfg.layoutOk) {j : Nat} (hj : j < cfg.inSlots) (r : Record) :
    WritesApart cfg fun m => m.putRecord (inSlotAddr cfg j) r := by
  have hd := Config.rings_disjoint hlayout
  refine ⟨fun i hi m q => Memory.putRecord_comm _ _ _ ?_, fun i hi k hk m => Memory.byteAt_putRecord_other _ _ ?_⟩ <;>
    (unfold inSlotAddr outSlotAddr; omega)

theorem State.readByte_withOthersOf {c : State} {w : Memory → Memory} {x : Nat}
    (h : (w s.mem).byteAt x = s.mem.byteAt x) : (s.withOthersOf c w).readByte x = s.readByte x := by
  simp only [readByte, withOthersOf, h]

theorem State.putOut_withOthersOf {c : State} {w : Memory → Memory} (hw : WritesApart s.cfg w)
    (hslot : s.outHead.toNat < s.cfg.outSlots) (r : Record) :
    (s.withOthersOf c w).putOut r = (s.putOut r).withOthersOf c w := by
  simp only [putOut, withOthersOf, hw.push _ hslot]

theorem State.rendered_withOthersOf {c : State} {w : Memory → Memory} (hw : WritesApart s.cfg w)
    (hslot : s.outTail.toNat < s.cfg.outSlots) : (s.withOthersOf c w).rendered = s.rendered.withOthersOf c w := by
  have hread : (s.withOthersOf c w).readRecord (outSlotAddr s.cfg s.outTail.toNat) =
      s.readRecord (outSlotAddr s.cfg s.outTail.toNat) := by
    refine State.readRecord_congr fun x hx hx' => State.readByte_withOthersOf ?_
    obtain ⟨k, rfl⟩ := Nat.exists_eq_add_of_le hx
    exact hw.read _ hslot k (by omega) _
  exact congrArg (fun r => State.setMph mTx (State.render r
    { s.withOthersOf c w with outTail := nextIndex s.cfg.outSlots s.outTail })) hread

/-- A MAIN operation other than DR.CHK, and than a DR.RD of what `w` writes, neither reads nor writes what
`State.withOthersOf` replaces. -/
theorem exec_main_withOthersOf {c : State} {w : Memory → Memory} (ha : i.agent = .main) (hw : WritesApart s.cfg w)
    (hchk : i = .drChk → c.inHead = s.inHead)
    (hrd : ∀ k, i = .drRd k → s.mNe = true →
      (w s.mem).byteAt (inSlotAddr s.cfg s.inTail.toNat + k.toNat) =
        s.mem.byteAt (inSlotAddr s.cfg s.inTail.toNat + k.toNat)) :
    sameOutcome (fun a b => a.withOthersOf c w = b) (exec i s) (exec i (s.withOthersOf c w)) := by
  cases i with
  | drChk =>
    exact sameOutcome_whenEnabled rfl rfl (congrArg (fun h : BitVec 8 => State.setMph mRd0
      { s.withOthersOf c w with mNe := !ringEmpty h.toNat s.inTail.toNat }) (hchk rfl).symm)
  | drRd k =>
    exact sameOutcome_execDrRd k rfl rfl rfl rfl rfl rfl fun hne => congrArg (fun b => State.setMph (s.mph + 1)
      { s.withOthersOf c w with mRec := s.mRec.setByte k b }) (State.readByte_withOthersOf (hrd k rfl hne)).symm
  | drFwd =>
    exact sameOutcome_execDrFwd rfl rfl rfl rfl rfl ⟨rfl, rfl, rfl, rfl,
      fun hslot r q => congrArg (fun u => (State.setQuota q u).setMph mFmt)
        (State.putOut_withOthersOf (s := s.advanceInTail) hw hslot r).symm,
      fun _ _ => rfl, rfl⟩
  | format =>
    exact sameOutcome_execFormat rfl rfl rfl rfl rfl rfl rfl fun hslot => (State.rendered_withOthersOf hw hslot).symm
  | tx r => exact sameOutcome_execTx r rfl rfl rfl rfl (fun _ => rfl) rfl
  | service => exact sameOutcome_whenEnabled rfl rfl rfl
  | init | pin | tmr | enterE | enterT | rdport | rdtlo | rdthi | commit | fwdTick | fwdEdge => simp [Instr.agent] at ha

/-- What PIN and TMR do to a state. -/
def envUpdate (e : Instr) (s : State) : State :=
  match e with
  | .pin v => s.movePins v
  | .tmr n => State.ticks n.toNat s
  | _ => s

theorem exec_env {e : Instr} (ha : e.agent = .env) (hwf : e.wellFormed = true) (hie : s.ie = true) :
    exec e s = .next (envUpdate e s) := by
  cases e with
  | pin v => exact execPin_next.2 ⟨hie, rfl⟩
  | tmr n => exact execTmr_next.2 ⟨enabled_tmr_iff.2 ⟨hie, bne_iff_ne.1 hwf⟩, rfl⟩
  | init | enterE | enterT | rdport | rdtlo | rdthi | commit | drChk | drRd | drFwd | format | tx | service
    | fwdTick | fwdEdge => simp [Instr.agent] at ha

/-- The update of PIN or TMR looks at items no MAIN operation changes, so it is the same before and after one. -/
theorem envUpdate_eq_withOthersOf {e : Instr} (ha : e.agent = .env) (h : s.sameForCapture t) :
    envUpdate e t = t.withOthersOf (envUpdate e s) id := by
  obtain ⟨heq, _⟩ := h
  cases e with
  | pin v =>
    rw [heq]
    rfl
  | tmr n =>
    rw [heq]
    simp only [envUpdate, State.ticks_eq]
    rfl
  | init | enterE | enterT | rdport | rdtlo | rdthi | commit | drChk | drRd | drFwd | format | tx | service
    | fwdTick | fwdEdge => simp [Instr.agent] at ha

theorem eq_mapNext_of_sameOutcome {g : State → State} {k k' : Result} (h : sameOutcome (fun a b => g a = b) k k') :
    k' = mapNext g k := by
  cases k <;> cases k' <;> simp_all [sameOutcome, mapNext, andThen]

theorem runScript_singleton (i : Instr) (s : State) : runScript [i] s = exec i s := by
  cases h : exec i s <;> simp [runScript, h]

/-- Settles O52: before the first INIT both are refused; afterwards PIN and TMR complete and change what no MAIN
operation looks at (`exec_main_withOthersOf`). -/
theorem environmentCommutesWithMain : Obligations.EnvironmentCommutesWithMain := by
  intro s m e hm he hwf
  cases hie : s.ie with
  | false =>
    have refused {i : Instr} (ha : i.agent = .main ∨ i.agent = .env) : exec i s = .refused .notStarted := by
      have hstep : i.isStep := by rcases ha with ha | ha <;> simp [Instr.isStep, ha]
      have hinit : i ≠ .init := by rintro rfl; simp [Instr.agent] at ha
      simp [exec_of_not_enabled hstep (enabled_of_ie_false hinit hie), hie]
    simp [runScript, refused (.inl hm), refused (.inr he)]
  | true =>
    have hupd : envUpdate e s = s.withOthersOf (envUpdate e s) id :=
      envUpdate_eq_withOthersOf he (State.sameForCapture_of_mem_eq rfl)
    have hhead : (envUpdate e s).inHead = s.inHead :=
      (congrArg State.inHead (exec_env_frame he (exec_env he hwf hie)) :)
    have hmain := eq_mapNext_of_sameOutcome (exec_main_withOthersOf (s := s) (c := envUpdate e s) hm
      (WritesApart.id s.cfg) (fun _ => hhead) fun _ _ _ => rfl)
    rw [runScript_cons (exec_env he hwf hie), runScript_singleton, hupd, hmain]
    cases h : exec m s with
    | next t =>
      have hsame := exec_main_sameForCapture (.inl hm) h
      have hie' : t.ie = true := (congrArg State.ie hsame.1 :).trans hie
      rw [runScript_cons h, runScript_singleton, exec_env he hwf hie', envUpdate_eq_withOthersOf he hsame]
      rfl
    | fault | refused =>
      rw [runScript, h]
      rfl

/-- The memory write of a handler entered in `s`. -/
def State.handlerWrite (kind : Bool) (s : State) (m : Memory) : Memory :=
  m.putRecord (inSlotAddr s.cfg s.inHead.toNat) ⟨tcntLow s.tcnt, tcntHigh s.tcnt, s.pin, marker kind⟩

/-- A handler looks at items no MAIN operation changes, so its update is the same before and after one, labels apart. -/
theorem State.handled_eq_withOthersOf (kind : Bool) (hhph : s.hph = hIdle) (h : s.sameForCapture t) :
    t.handled kind =
      { t.withOthersOf (s.handled kind) (s.handlerWrite kind) with evLog := (t.handled kind).evLog } := by
  obtain ⟨heq, _⟩ := h
  have hidle : hIdle = t.hph := ((congrArg State.hph heq :).trans hhph).symm
  have hupd : t.handled kind = { t.withOthersOf (s.handled kind) (s.handlerWrite kind) with
      evLog := (t.handled kind).evLog, hph := hIdle } := by
    rw [heq]
    cases kind <;> rfl
  exact hupd.trans (congrArg (fun p => { t.withOthersOf (s.handled kind) (s.handlerWrite kind) with
    evLog := (t.handled kind).evLog, hph := p }) hidle)

/-- A MAIN operation after a whole handler: the handler's update of the state after the operation, labels apart. -/
theorem exec_main_handled {kind : Bool} {v : State} (hs : s.Inv) (hm : i.agent = .main) (hchk : i ≠ .drChk)
    (hrd : (∃ k, i = .drRd k) → s.mNe = true → s.inHead ≠ s.inTail) (hhph : s.hph = hIdle)
    (hv : exec i s = .next v) :
    ∃ u, exec i (s.handled kind) = .next u ∧ (v.handled kind).withoutLabels = u.withoutLabels := by
  have ⟨⟨_, _, hlayout, _⟩, _, ⟨hhead, _⟩, _⟩ := hs
  have hwrite : WritesApart s.cfg (s.handlerWrite kind) := WritesApart.putRecord hlayout hhead _
  have hread (k : BitVec 2) (hk : i = .drRd k) (hne : s.mNe = true) :
      (s.handlerWrite kind s.mem).byteAt (inSlotAddr s.cfg s.inTail.toNat + k.toNat) =
        s.mem.byteAt (inSlotAddr s.cfg s.inTail.toNat + k.toNat) := by
    refine Memory.byteAt_putRecord_other _ _ ?_
    have hslot : s.inHead.toNat ≠ s.inTail.toNat := fun heq => hrd ⟨k, hk⟩ hne (BitVec.eq_of_toNat_eq heq)
    have hk := k.isLt
    unfold inSlotAddr
    omega
  have hmain : exec i (s.withOthersOf (s.handled kind) (s.handlerWrite kind)) =
      .next (v.withOthersOf (s.handled kind) (s.handlerWrite kind)) := by
    rw [eq_mapNext_of_sameOutcome (exec_main_withOthersOf hm hwrite (fun h => absurd h hchk) hread), hv]
    rfl
  have hlabels := sameButLabels_exec (s.withOthersOf (s.handled kind) (s.handlerWrite kind)) (s.handled kind).evLog i
  rw [← State.handled_eq_withOthersOf kind hhph (State.sameForCapture_of_mem_eq rfl), sameButLabels, hmain] at hlabels
  cases hu : exec i (s.handled kind) with
  | next u =>
    rw [hu] at hlabels
    refine ⟨u, rfl, ?_⟩
    rw [State.handled_eq_withOthersOf kind hhph (exec_main_sameForCapture (.inl hm) hv)]
    exact (Host.Outcome.next.inj hlabels).symm
  | fault | refused => simp [hu, mapNext, andThen] at hlabels

/-- Settles O53: the handler is enabled before and after the MAIN operation and leaves `State.handled`, whose update no
such operation looks at (`exec_main_handled`). -/
theorem handlerCommutesWithMain : Obligations.HandlerCommutesWithMain := by
  intro s m entry hs hm hme hentry hee hchk hrd
  obtain ⟨kind, rfl⟩ : ∃ kind, entry = entryOf kind := by
    obtain rfl | rfl := hentry
    exacts [⟨true, rfl⟩, ⟨false, rfl⟩]
  have hhph := hph_of_enabled (.inl hm) hme
  obtain ⟨v, hv⟩ := exec_completes hs hme
  have hve : enabled (entryOf kind) v = true :=
    ((exec_main_sameForCapture (.inl hm) hv).enabled (by cases kind <;> rfl)).trans hee
  obtain ⟨u, hu, hlabels⟩ := exec_main_handled (kind := kind) hs hm hchk hrd hhph hv
  exact ⟨v.handled kind, u, runScript_step hv (runScript_handler (exec_inv hs hv) hve),
    (runScript_append (runScript_handler hs hee)).trans ((runScript_singleton _ _).trans hu), hlabels⟩

end Sys2Proof.Machine
end

section
/-! SUPPORT and the statements of 44_startup_and_environment.md R201 and 60_exceptions.md R220: the run of the free
schedule never ends, and a capture operation that can be taken is not put off for ever (log entry 12). -/

namespace Sys2Proof.Machine

variable {s t u : State} {i : Instr}

/-! ### Runs (00_scope.md R15) -/

theorem State.after_succ_of_step (h : step s = .next t) (n : Nat) : s.after (n + 1) = t.after n := by
  induction n with
  | zero => rw [after, after, after, h]
  | succ n ih => rw [after, ih, after]

theorem State.after_add (s : State) (n k : Nat) : s.after (n + k) = (s.after n).after k := by
  induction k with
  | zero => rfl
  | succ k ih => rw [← Nat.add_assoc, after, ih, after]

/-- A state of the free schedule: the invariant, and no script. -/
abbrev State.Free (s : State) : Prop := s.Inv ∧ s.script = []

/-- The step of a free state is the drawn one, which completes and leaves a free state. -/
theorem State.Free.step (hs : s.Free) :
    ∃ t, Machine.step s = .next t ∧ exec (drawnStep s) (s.countDraw (drawnStep s)) = .next t ∧ t.Free := by
  obtain ⟨hinv, hscript⟩ := hs
  have hfetch := fetch_of_script_nil hscript
  have he := (enabled_of_fetch hfetch (drawnStep s)).trans (drawnStep_enabled s)
  obtain ⟨t, ht⟩ := exec_completes (fetch_inv hinv hfetch) he
  have hstep := (step_of_fetch hfetch).trans ht
  obtain ⟨hkept, _⟩ := operationsKeepSchedule _ t _ ht
  exact ⟨t, hstep, ht, step_inv hinv hstep, hkept.trans hscript⟩

theorem State.Free.taken (hs : s.Free) : Machine.taken s = some (drawnStep s) := by
  rw [Machine.taken, fetch_of_script_nil hs.2]

theorem State.Free.after (hs : s.Free) (n : Nat) : (s.after n).Free := by
  induction n with
  | zero => exact hs
  | succ n ih =>
    obtain ⟨t, ht, _, hfree⟩ := ih.step
    rw [State.after, ht]
    exact hfree

theorem State.Free.runsForever (hs : s.Free) : s.RunsForever := by
  intro n
  obtain ⟨t, ht, _⟩ := (hs.after n).step
  rw [State.after, ht]

/-- What is taken is enabled. -/
theorem State.Free.enabled_of_taken (hs : s.Free) (h : Machine.taken s = some i) : enabled i s = true := by
  obtain rfl : drawnStep s = i := Option.some.inj (hs.taken.symm.trans h)
  exact drawnStep_enabled s

/-! ### What a step does to the capture unit's chance of being taken (R201, R220) -/

/-- An operation of another agent, INIT apart, leaves some capture operation enabled. -/
theorem captureEnabled_of_exec (ha : i.agent ≠ .isr) (hi : i ≠ .init) (h : exec i s = .next t)
    (hs : captureEnabled s ≠ []) : captureEnabled t ≠ [] := by
  have hie := exec_ie hi h
  have hhph := exec_hph_of_not_isr ha hi h
  have hflags : (s.eif ≠ 0 → t.eif ≠ 0) ∧ (s.tovf = true → t.tovf = true) := by
    obtain he | hc | hm := Instr.agent_cases hi
    · obtain ⟨heif, htovf⟩ := exec_env_flags he h
      refine ⟨fun hne hzero => hne ?_, htovf⟩
      rw [← heif, hzero, BitVec.ofNat_eq_ofNat, BitVec.and_zero]
    · exact absurd hc ha
    · have hsame := (exec_main_sameForCapture hm h).1
      have heif : t.eif = s.eif := (congrArg State.eif hsame :)
      have htovf : t.tovf = s.tovf := (congrArg State.tovf hsame :)
      rw [heif, htovf]
      exact ⟨id, id⟩
  rw [captureEnabled_ne_nil] at hs ⊢
  rw [hie, hhph]
  obtain ⟨h1, ⟨h2, h3⟩ | h2⟩ := hs
  · exact ⟨h1, .inl ⟨h2, h3.imp hflags.1 hflags.2⟩⟩
  · exact ⟨h1, .inr h2⟩

/-- INIT clears the flags and ends a handler, so that no capture operation is enabled (R196). -/
theorem captureEnabled_of_init (h : exec .init s = .next t) : captureEnabled t = [] := by
  obtain rfl := execInit_next.1 h
  by_contra hne
  have not_at {p : BitVec 3} (hp : hIdle ≠ p) (h : s.initialize.hph = p) : False := hp h
  obtain ⟨_, ⟨_, h | h⟩ | h | h | h | h⟩ := captureEnabled_ne_nil.1 hne
  · exact h rfl
  · exact absurd (show false = true from h) (by decide)
  all_goals exact not_at (by decide) h

/-- A wait goes on while other agents step. -/
theorem countDraw_waited (hen : captureEnabled s ≠ []) (ha : i.agent ≠ .isr) :
    (s.countDraw i).waited = s.waited + 1 := by
  obtain ⟨hend | hend, _⟩ | ⟨_, _, hcount⟩ := State.countDraw_waited_cases i s
  · exact absurd hend hen
  · exact absurd hend ha
  · exact hcount

/-- In a free state where a capture operation is enabled, one is taken, or an INIT, after `d` steps at most when the
delay allows no more; meanwhile HPH does not move. -/
theorem exists_capture_taken_within (d : Nat) (hs : s.Free) (hen : captureEnabled s ≠ [])
    (hd : Config.freeDelay (s.draws - s.waited) ≤ s.waited + d) :
    ∃ m i, taken (s.after m) = some i ∧ (i.agent = .isr ∨ i = .init) ∧ ∀ j ≤ m, (s.after j).hph = s.hph := by
  have now {u : State} (hu : u.Free) (h : (drawnStep u).agent = .isr ∨ drawnStep u = .init) :
      ∃ m i, taken (u.after m) = some i ∧ (i.agent = .isr ∨ i = .init) ∧ ∀ j ≤ m, (u.after j).hph = u.hph :=
    ⟨0, drawnStep u, hu.taken, h, fun j hj => by rw [Nat.le_zero.1 hj, State.after]⟩
  induction d generalizing s with
  | zero =>
    have hdue : captureDue s = true := by simpa [captureDue, hen] using hd
    exact now hs (.inl (drawnStep_of_captureDue hdue))
  | succ d ih =>
    by_cases hi : (drawnStep s).agent = .isr ∨ drawnStep s = .init
    · exact now hs hi
    obtain ⟨ha, hinit⟩ := not_or.1 hi
    obtain ⟨t, hstep, hexec, ht⟩ := hs.step
    obtain ⟨_, _, hwaited, hdraws⟩ := operationsKeepSchedule _ t _ hexec
    have hwaited : t.waited = s.waited + 1 := hwaited.trans (countDraw_waited hen ha)
    have hdraws : t.draws = s.draws + 1 := (hdraws hinit).1
    have hdelay : Config.freeDelay (t.draws - t.waited) ≤ t.waited + d := by
      rw [hdraws, hwaited, Nat.add_sub_add_right]
      omega
    obtain ⟨m, i, htaken, hi, hhph⟩ := ih ht (captureEnabled_of_exec ha hinit hexec hen) hdelay
    have hkept : t.hph = s.hph := exec_hph_of_not_isr (s := s.countDraw (drawnStep s)) ha hinit hexec
    refine ⟨m + 1, i, ?_, hi, fun j hj => ?_⟩
    · rw [State.after_succ_of_step hstep, htaken]
    · cases j with
      | zero => rfl
      | succ j => rw [State.after_succ_of_step hstep, hhph j (by omega), hkept]

/-- In a free state where a capture operation is enabled, one is taken at that point or later, or an INIT, before HPH
moves: the delay is finite. -/
theorem exists_capture_taken (hs : s.Free) (hen : captureEnabled s ≠ []) :
    ∃ m i, taken (s.after m) = some i ∧ (i.agent = .isr ∨ i = .init) ∧ ∀ j ≤ m, (s.after j).hph = s.hph :=
  exists_capture_taken_within (Config.freeDelay (s.draws - s.waited)) hs hen (by omega)

/-- The state after the operation taken. -/
theorem State.Free.exec_taken (hs : s.Free) (h : Machine.taken s = some i) (hnext : Machine.step s = .next t) :
    exec i (s.countDraw i) = .next t := by
  obtain rfl : drawnStep s = i := Option.some.inj (hs.taken.symm.trans h)
  obtain ⟨t', ht', hexec, _⟩ := hs.step
  rw [hexec, ← ht', hnext]

/-! ### Weak fairness (60_exceptions.md R220) -/

/-- A capture operation is enabled at one phase of the capture unit only. -/
theorem hph_eq_of_enabled (ha : i.agent = .isr) (hs : enabled i s = true) (ht : enabled i t = true) :
    t.hph = s.hph := by
  cases i with
  | enterE | enterT => rw [hph_of_enabled (by simp) hs, hph_of_enabled (by simp) ht]
  | rdport | rdtlo | rdthi | commit => rw [(handlerAt_iff.1 hs).2, (handlerAt_iff.1 ht).2]
  | init | pin | tmr | drChk | drRd | drFwd | format | tx | service | fwdTick | fwdEdge => simp [Instr.agent] at ha

/-- Taking a capture operation, or INIT, disables every capture operation that was enabled. -/
theorem not_enabled_after_capture {j : Instr} (hj : j.agent = .isr) (hen : enabled j s = true)
    (hi : i.agent = .isr ∨ i = .init) (h : exec i s = .next t) : enabled j t = false := by
  by_contra hne
  have hen' : enabled j t = true := by simpa using hne
  obtain ha | rfl := hi
  · obtain ⟨hnext, _⟩ := exec_isr_hph ha h
    rw [hph_eq_of_enabled hj hen hen'] at hnext
    omega
  · have hmem : j ∈ captureEnabled t := mem_captureEnabled.2 ⟨hj, hen'⟩
    simp [captureEnabled_of_init h] at hmem

/-- While a capture operation stays enabled one is taken at last (`exists_capture_taken`). That disables every one that
was enabled, so none stays enabled for ever without being taken. -/
theorem State.Free.weaklyFair (hs : s.Free) (ha : i.agent = .isr) : s.WeaklyFair i := by
  intro n hall
  have hen : captureEnabled (s.after n) ≠ [] := List.ne_nil_of_mem (mem_captureEnabled.2 ⟨ha, hall n le_rfl⟩)
  obtain ⟨k, j, htaken, hj, _⟩ := exists_capture_taken (hs.after n) hen
  rw [← State.after_add] at htaken
  have hfree := hs.after (n + k)
  have hexec := hfree.exec_taken htaken (hs.runsForever (n + k))
  have hcount : enabled i ((s.after (n + k)).countDraw j) = true := by
    rw [← hall (n + k) (by omega)]
    cases i <;> rfl
  exact absurd (hall (n + k + 1) (by omega)) (by simp [not_enabled_after_capture ha hcount hj hexec])

/-- Settles O57: every step of the run completes, and no capture operation waits for ever. -/
theorem freeRunIsWeaklyFair : Obligations.FreeRunIsWeaklyFair := fun _ hs hscript =>
  have hfree : State.Free _ := ⟨hs, hscript⟩
  ⟨hfree.runsForever, fun _ ha => hfree.weaklyFair ha⟩

/-! ### Handlers are served (44_startup_and_environment.md R201) -/

/-- With no handler running a capture operation is an entry. -/
theorem entry_of_enabled_of_idle (ha : i.agent = .isr) (hen : enabled i s = true) (hhph : s.hph = hIdle) :
    i = .enterE ∨ i = .enterT := by
  have not_at {p : BitVec 3} (hp : hIdle ≠ p) (h : handlerAt p s = true) : i = .enterE ∨ i = .enterT :=
    absurd (hhph.symm.trans (handlerAt_iff.1 h).2) hp
  cases i with
  | enterE => exact .inl rfl
  | enterT => exact .inr rfl
  | rdport | rdtlo | rdthi | commit => exact not_at (by decide) hen
  | init | pin | tmr | drChk | drRd | drFwd | format | tx | service | fwdTick | fwdEdge => simp [Instr.agent] at ha

theorem State.Free.handlersEntered (hs : s.Free) : s.HandlersEntered := by
  intro n hen
  have hidle : (s.after n).hph = hIdle := hen.elim (hph_of_enabled (by simp)) (hph_of_enabled (by simp))
  have hcapture : captureEnabled (s.after n) ≠ [] := hen.elim
    (fun h => List.ne_nil_of_mem (mem_captureEnabled.2 ⟨rfl, h⟩))
    (fun h => List.ne_nil_of_mem (mem_captureEnabled.2 ⟨rfl, h⟩))
  obtain ⟨k, i, htaken, hi, hhph⟩ := exists_capture_taken (hs.after n) hcapture
  have hentered := ((hs.after n).after k).enabled_of_taken htaken
  refine ⟨n + k, i, by omega, by rw [State.after_add, htaken], ?_⟩
  obtain ha | ha := hi
  · exact (entry_of_enabled_of_idle ha hentered ((hhph k le_rfl).trans hidle)).imp_right .inl
  · exact .inr (.inr ha)

/-- Before the first INIT that is what is taken (70_reset_and_hazards.md R240). -/
theorem State.Free.taken_of_ie_false (hs : s.Free) (hie : s.ie = false) : Machine.taken s = some .init := by
  rw [hs.taken]
  by_contra hne
  have he := ie_of_enabled (fun h => hne (congrArg some h)) (drawnStep_enabled s)
  exact absurd (hie.symm.trans he) (by decide)

/-- COMMIT is the capture operation of the last phase (10_state.md R30). -/
theorem eq_commit_of_enabled (ha : i.agent = .isr) (hen : enabled i s = true) (hhph : s.hph = hCommit) :
    i = .commit := by
  have not_at {p : BitVec 3} (hp : hCommit ≠ p) (h : s.hph = p) : i = .commit := absurd (hhph.symm.trans h) hp
  cases i with
  | commit => rfl
  | enterE | enterT => exact not_at (by decide) (hph_of_enabled (by simp) hen)
  | rdport | rdtlo | rdthi => exact not_at (by decide) (handlerAt_iff.1 hen).2
  | init | pin | tmr | drChk | drRd | drFwd | format | tx | service | fwdTick | fwdEdge => simp [Instr.agent] at ha

/-- The phases of a running handler (10_state.md R30, R44). -/
theorem handlerPhase_cases {p : BitVec 3} (hle : p ≤ hCommit) (hne : p ≠ hIdle) :
    p = hPort ∨ p = hTlo ∨ p = hThi ∨ p = hCommit := by
  revert p
  decide

/-- From a point inside a handler its COMMIT is taken, or an INIT, and until then the handler runs. -/
theorem exists_commit_taken (d : Nat) (hs : s.Free) (hne : s.hph ≠ hIdle) (hd : 5 ≤ s.hph.toNat + d) :
    ∃ m i, taken (s.after m) = some i ∧ (i = .commit ∨ i = .init) ∧ ∀ j ≤ m, (s.after j).hph ≠ hIdle := by
  induction d generalizing s with
  | zero =>
    have ⟨⟨_, _, _, _, ⟨hle, _⟩, _⟩, _⟩ := hs
    bv_omega
  | succ d ih =>
    have ⟨⟨_, _, _, _, ⟨hle, _⟩, _⟩, _⟩ := hs
    cases hie : s.ie with
    | false => exact ⟨0, .init, hs.taken_of_ie_false hie, .inr rfl, fun j hj => by rwa [Nat.le_zero.1 hj]⟩
    | true =>
      have hen : captureEnabled s ≠ [] := captureEnabled_ne_nil.2 ⟨hie, .inr (handlerPhase_cases hle hne)⟩
      obtain ⟨k, i, htaken, hi, hhph⟩ := exists_capture_taken hs hen
      have hrunning (j : Nat) (hj : j ≤ k) : (s.after j).hph ≠ hIdle := hhph j hj ▸ hne
      obtain ha | hinit := hi
      · have hexec := (hs.after k).exec_taken htaken (hs.runsForever k)
        by_cases hlast : s.hph = hCommit
        · have hcommit := eq_commit_of_enabled ha ((hs.after k).enabled_of_taken htaken) ((hhph k le_rfl).trans hlast)
          exact ⟨k, i, htaken, .inl hcommit, hrunning⟩
        · have hnext : (s.after (k + 1)).hph.toNat = (s.hph.toNat + 1) % 5 := by
            rw [← hhph k le_rfl]
            exact (exec_isr_hph ha hexec).1
          have hlt : s.hph.toNat < 4 := by bv_omega
          have hne' : (s.after (k + 1)).hph ≠ hIdle := by bv_omega
          obtain ⟨m, i', htaken', hi', hrunning'⟩ := ih (hs.after (k + 1)) hne' (by omega)
          refine ⟨k + 1 + m, i', by rw [State.after_add, htaken'], hi', fun j hj => ?_⟩
          obtain hjk | hjk : j ≤ k ∨ k + 1 ≤ j := by omega
          · exact hrunning j hjk
          · obtain ⟨l, rfl⟩ := Nat.exists_eq_add_of_le hjk
            rw [State.after_add]
            exact hrunning' l (by omega)
      · exact ⟨k, i, htaken, .inr hinit, hrunning⟩

theorem State.Free.handlersCompleted (hs : s.Free) : s.HandlersCompleted := by
  intro n hne
  obtain ⟨m, i, htaken, hi, hrunning⟩ := exists_commit_taken 5 (hs.after n) hne (by omega)
  refine ⟨n + m, i, by omega, by rw [State.after_add, htaken], hi, fun j k hj hjm hk => ?_⟩
  obtain ⟨l, rfl⟩ := Nat.exists_eq_add_of_le hj
  have hhph : (s.after (n + l)).hph ≠ hIdle := by
    rw [State.after_add]
    exact hrunning l (by omega)
  have hexcluded : ¬ (k.agent = .main ∨ k = .enterE ∨ k = .enterT) := fun hk' =>
    hhph (hph_of_enabled hk' ((hs.after (n + l)).enabled_of_taken hk))
  simpa only [not_or] using hexcluded

/-- Settles O58: an entry that can be taken is, and a handler runs on to its COMMIT, INIT apart. -/
theorem freeRunServesHandlers : Obligations.FreeRunServesHandlers := fun _ hs hscript =>
  have hfree : State.Free _ := ⟨hs, hscript⟩
  ⟨hfree.handlersEntered, hfree.handlersCompleted⟩

end Sys2Proof.Machine
end
